-- ==== Sys2Proof/Word.lean ====
section
/-! DEFINITION. The machine's words: bytes of a serial frame, 16-bit table-space words, 24-bit table-space
addresses, and the sparse tables that hold the addressed stores of the part. -/

namespace Sys2Proof

/-- One byte on a console link or an output line. -/
abbrev Byte := BitVec 8

/-- One table-space word ("Table-space words are 16 bits", 00_scope.md). -/
abbrev Word := BitVec 16

/-- One table-space address as a request carries it (24 bits, counting words, 00_scope.md). -/
abbrev Addr := BitVec 24

/-- A store by number: the entries that differ from what an unlisted number reads as, numbers rising.
The reading and writing functions, and the canonical form, are in `Machine/Ops.lean`. -/
abbrev Table (α : Type) := List (Nat × α)

end Sys2Proof
end

