-- ==== Sys2Proof/Syntax.lean ====
section
/-! DEFINITION. The commands of the block: one constructor of `Instr` for each row of spec/opcode_table.json,
with the row's operands, and the small types the operands use. -/

namespace Sys2Proof

/-- The two console links (01_console_links.md). -/
inductive Link where
  | a
  | b
  deriving DecidableEq, Repr

/-- The two show banks (R148). -/
inductive Bank where
  | b0
  | b1
  deriving DecidableEq, Repr

/-- The three keys of the stage panel (R75). -/
inductive Key where
  | go
  | back
  | pause
  deriving DecidableEq, Repr

/-- The two parts of a playback's fade (R55). -/
inductive PartName where
  | up
  | down
  deriving DecidableEq, Repr

/-- A playback, 1 to 16, held as its number less 1. -/
abbrev PlaybackNo := Fin 16

/-- An output line, 1 to 4, held as its number less 1. -/
abbrev LineNo := Fin 4

/-- What a request carries besides its code and parameters (R135): the link it arrived on, its unit byte
(0 is a broadcast, R9) and its tag. -/
structure Req where
  link : Link
  unit : Byte
  tag  : Byte
  deriving DecidableEq, Repr

/-- The order in which two keys or three that are recognised at one step expiry act ("in the order of
recognition", R75, which the spec leaves to the world). -/
inductive KeyOrder where
  | goBackPause
  | goPauseBack
  | backGoPause
  | backPauseGo
  | pauseGoBack
  | pauseBackGo
  deriving DecidableEq, Repr

/-- How the world orders the events that fall together at one step expiry of the fade engine (R73): each key's recognition
is taken after so many playbacks, in ascending number, have been advanced, and keys at one place in the order `keys`
(log 15). -/
structure StepOrder where
  go    : Fin 17
  back  : Fin 17
  pause : Fin 17
  keys  : KeyOrder
  deriving DecidableEq, Repr

/-- The commands: operations and events of spec/opcode_table.json. Playbacks of requests are bytes as the frame
carries them (a value outside 1 to 16 is refused by R135); playbacks and lines of events are numbers less 1. -/
inductive Instr where
  /-- FULL_RESET (R18). -/
  | fullReset
  /-- RESET_RELEASE (R167). -/
  | resetRelease
  /-- POWER_UP_CHECK_END (R169). -/
  | powerUpCheckEnd
  /-- FRAME_COMPLETE (R5): `b` is the second CRC byte of the frame in reception on link `x`. -/
  | frameComplete (x : Link) (b : Byte)
  /-- GAP_ERROR (R3). -/
  | gapError (x : Link)
  /-- OVERSIZE_FRAME (R4): `b` is the third header byte. -/
  | oversizeFrame (x : Link) (b : Byte)
  /-- DRAIN_END (R4). -/
  | drainEnd (x : Link)
  /-- LOSS_TIMER_STEP (R14). -/
  | lossTimerStep (x : Link)
  /-- LOSS_TIMER_EXPIRY (R15). -/
  | lossTimerExpiry (x : Link)
  /-- ARBITER_STEP (R29). -/
  | arbiterStep
  /-- HANDOVER_COMPLETE (R32). -/
  | handoverComplete
  /-- LOSS_FADE_START (R33). -/
  | lossFadeStart
  /-- LOSS_FADE_END (R34). -/
  | lossFadeEnd
  /-- INDEX (R137). -/
  | index (r : Req) (addr : Addr)
  /-- WRITE (R138). -/
  | write (r : Req) (ws : List Word)
  /-- SOURCE_MODE_WRITE (R35): a WRITE of one word at the source mode's address. -/
  | sourceModeWrite (r : Req) (v : Word)
  /-- PREFERRED_LINK_WRITE (R36). -/
  | preferredLinkWrite (r : Req) (v : Word)
  /-- BOUND_STACK_WRITE (R54). -/
  | boundStackWrite (r : Req) (p : PlaybackNo) (v : Word)
  /-- UNIT_NUMBER_WRITE (R139). -/
  | unitNumberWrite (r : Req) (v : Word)
  /-- LINE_ENABLE_WRITE (R133). -/
  | lineEnableWrite (r : Req) (k : LineNo) (v : Word)
  /-- COUNTER_CLEAR (R17): `off` is the counter word's offset in the status area. -/
  | counterClear (r : Req) (off : Nat) (v : Word)
  /-- ACTIVE_BANK_WRITE (R150): `off` is the word's offset in the active bank. -/
  | activeBankWrite (r : Req) (off : Nat) (v : Word)
  /-- STAGED_BANK_WRITE (R152): `off` is the word's offset in the staged bank `bank`. -/
  | stagedBankWrite (r : Req) (bank : Bank) (off : Nat) (v : Word)
  /-- READ (R139). -/
  | read (r : Req) (count : Word)
  /-- HOLD (R153). -/
  | hold (r : Req)
  /-- APPLY (R153). -/
  | apply (r : Req)
  /-- DISCARD (R153). -/
  | discard (r : Req)
  /-- COPY (R156). -/
  | copy (r : Req) (src dst count : Addr)
  /-- COPY_WORD (R157). -/
  | copyWord
  /-- VERIFY (R158). -/
  | verify (r : Req) (bank : Byte)
  /-- VERIFY_WORD (R158). -/
  | verifyWord
  /-- SWITCH (R162). -/
  | switch (r : Req) (bank : Byte)
  /-- GO (R67). -/
  | go (r : Req) (playback : Byte)
  /-- BACK (R68). -/
  | back (r : Req) (playback : Byte)
  /-- GOTO (R69). -/
  | goto (r : Req) (playback : Byte) (cue : Word) (time : Option Word)
  /-- PAUSE (R70). -/
  | pause (r : Req) (playback : Byte)
  /-- RESUME (R70). -/
  | resume (r : Req) (playback : Byte)
  /-- RELEASE (R71). -/
  | release (r : Req) (playback : Byte) (time : Option Word)
  /-- TAKE (R22). -/
  | take (r : Req)
  /-- LOCK (R23). -/
  | lock (r : Req)
  /-- UNLOCK (R23). -/
  | unlock (r : Req)
  /-- RESTART (R146). -/
  | restart (r : Req)
  /-- FADE_STEP (R64). -/
  | fadeStep (o : StepOrder)
  /-- PART_DELAY_END (R64). -/
  | partDelayEnd (p : PlaybackNo) (part : PartName) (o : StepOrder)
  /-- CUE_COMPLETION (R64). -/
  | cueCompletion (p : PlaybackNo) (o : StepOrder)
  /-- RELEASE_COMPLETION (R72). -/
  | releaseCompletion (p : PlaybackNo) (o : StepOrder)
  /-- FOLLOW_EXPIRY (R65). -/
  | followExpiry (p : PlaybackNo) (o : StepOrder)
  /-- KEY_INPUT_CHANGE (R75): the key's input comes to stand at the pressed level, or at the released one. -/
  | keyInputChange (k : Key) (pressed : Bool)
  /-- KEY_PRESSED (R76). -/
  | keyPressed (k : Key) (o : StepOrder)
  /-- KEY_RELEASED (R75). -/
  | keyReleased (k : Key) (o : StepOrder)
  /-- LINE_STEP (R125). -/
  | lineStep (k : LineNo)
  /-- PERIOD_TIMER_EXPIRY (R124). -/
  | periodTimerExpiry (k : LineNo)
  /-- CIRCUIT_COMPOSITION (R127): the next circuit of line `k`'s frame. -/
  | circuitComposition (k : LineNo)
  /-- END_OF_FRAME (R131). -/
  | endOfFrame (k : LineNo)
  /-- RETURN_FRAME_START (R145). -/
  | returnFrameStart (x : Link)
  /-- RETURN_FRAME_END (R145). -/
  | returnFrameEnd (x : Link)
  /-- RECEIVED_BYTE (R2). -/
  | receivedByte (x : Link) (b : Byte)
  /-- PARITY_FAULT (R163): the retained word at `addr` comes to hold the value `v` and a parity that disagrees. -/
  | parityFault (addr : Addr) (v : Word)
  deriving DecidableEq, Repr

end Sys2Proof
end

