-- ==== Sys2Proof/Decode.lean ====
section
/-! DEFINITION. The words of the opcode table. No row of spec/opcode_table.json gives bits ("fields" is empty and there
is no "fixed" in all 58 rows), so no word spells a command. The requests that a console sends in frames are decoded by
`Machine.parseRequest` (Machine/Operands.lean). -/

namespace Sys2Proof

/-- The command that a word spells by the table's bits: none, since no row gives bits. -/
def decodeTableWord (_nbits _w : Nat) : Option Instr := none

end Sys2Proof
end

