-- ==== Sys2Proof/Config.lean ====
section
/-! DEFINITION. What the spec leaves open as a VALUE: free values, which no proof can see. -/

namespace Sys2Proof

/-- DESIGN CHOICE (log 4): the free values of the machine, one for each draw number. It has no body: nothing
constrains any of them. They stand for the values the spec does not state: the number of differing words in the
reply to an APPLY that is refused, and the patched level of a circuit whose live patch entry holds a value that
R93 and R109 give no meaning. -/
opaque Config.freeWord : Nat → Word

/-- DESIGN CHOICE (log 24): what a progress count past 24 bits reads as, for each count. It has no body: the spec gives the
count 24 bits and does not say how it goes on (R155). -/
opaque Config.longCount : Nat → Addr

/-- DESIGN CHOICE (log 27): the count a region takes under a shadow base above 1,025, for each base and offered count. It
has no body: R151 clamps the count to 1,025 less the base, which is negative there, and gives no other. -/
opaque Config.regionCount : Word → Word → Word

end Sys2Proof
end

