-- ==== Sys2Proof/Machine/State.lean ====
section
/-! DEFINITION. Everything the spec gives the part to hold, as plain data, and the state of full reset.
Counts, levels and addresses are natural numbers (the spec's arithmetic is on unsigned integers without
wrapping, R91); what a console reads or writes as a word is a `Word`. -/

namespace Sys2Proof.Machine

/-! ## Small state types -/

/-- One item for each console link. -/
structure PerLink (α : Type) where
  a : α
  b : α
  deriving DecidableEq, Repr

/-- One item for each bank. -/
structure PerBank (α : Type) where
  b0 : α
  b1 : α
  deriving DecidableEq, Repr

/-- A word of the retained store with its parity (R163): `bad` says that the stored value and the stored parity
disagree. -/
structure StoredWord where
  val : Word
  bad : Bool
  deriving DecidableEq, Repr

/-- What the part is doing: held in full reset, running the power-up check, or past its end (R18, R167, R169). -/
inductive Phase where
  | inReset
  | checking
  | running
  deriving DecidableEq, Repr

/-! ## Link receivers (01_console_links.md) -/

/-- R12. -/
inductive LinkState where
  | down
  | acquiring
  | live
  deriving DecidableEq, Repr

/-- The reception state with what is stored of the frame in progress (R2). -/
inductive Reception where
  | hunt
  /-- the header bytes taken so far, 0 to 2 of them -/
  | header (got : List Byte)
  /-- type, payload length, payload bytes taken so far, and the first CRC byte once taken -/
  | body (typ : Byte) (len : Nat) (payload : List Byte) (crcHi : Option Byte)
  | drain
  deriving DecidableEq, Repr

/-- The nine counters of a link (R17), in the order of the status area. -/
structure LinkCounters where
  goodLevel   : Nat
  goodRequest : Nat
  crc         : Nat
  length      : Nat
  gap         : Nat
  oversize    : Nat
  unknownType : Nat
  filtered    : Nat
  dropped     : Nat
  deriving DecidableEq, Repr

/-- A link receiver (R2, R8, R12, R14, R17). `timer` is the loss timer: stopped, or running with its elapsed
count. `buffer` holds the level of each channel 1 to 512, unlisted channels at 0. -/
structure LinkRx where
  rx       : Reception
  state    : LinkState
  acq      : Nat
  timer    : Option Nat
  buffer   : Table Nat
  counters : LinkCounters
  deriving DecidableEq, Repr

/-! ## Control arbiter (02_control_ownership_and_the_console_contribution.md) -/

/-- R19. -/
inductive SourceMode where
  | isolated
  | sole
  | tracking
  | merge
  deriving DecidableEq, Repr

/-- R29. -/
inductive SourceState where
  | normal
  | handover
  | hold
  | lossFade
  | dark
  | off
  deriving DecidableEq, Repr

/-- R21. -/
inductive Cause where
  | take
  | loss
  | reclaim
  | ret
  deriving DecidableEq, Repr

/-- The arbiter's volatile state (R20, R29). `snapshot` holds S of each channel, unlisted channels at 0. -/
structure Arbiter where
  owner    : Link
  lock     : Bool
  holdoff  : Bool
  source   : SourceState
  snapshot : Table Nat
  elapsed  : Nat
  deriving DecidableEq, Repr

/-! ## Working copies (R123, R163) -/

/-- R123. -/
inductive LineMode where
  | coarse
  | fine
  deriving DecidableEq, Repr

/-- The working copy of an output line's settings (R123). -/
structure LineSettings where
  enable : Bool
  count  : Nat
  mode   : LineMode
  period : Nat
  deriving DecidableEq, Repr

/-- The working copies of R163: volatile, without parity. -/
structure Working where
  sourceMode    : SourceMode
  preferred     : Link
  reclaim       : Bool
  handoverTime  : Nat
  lossTime      : Nat
  lossFadeDelay : Nat
  lossFadeTime  : Nat
  unit          : Nat
  panelPlayback : Nat
  panelEnable   : Bool
  lines         : Vector LineSettings 4
  deriving DecidableEq, Repr

/-! ## Fade engine (04_playbacks_and_the_fade_engine.md) -/

/-- R56. -/
inductive PlaybackState where
  | unbound
  | ready
  | fading
  | paused
  | atCue
  | releasing
  deriving DecidableEq, Repr

/-- R55. -/
inductive PartPhase where
  | delay
  | running
  | done
  deriving DecidableEq, Repr

/-- One part of a fade (R55). -/
structure FadePart where
  phase   : PartPhase
  delay   : Nat
  elapsed : Nat
  time    : Nat
  deriving DecidableEq, Repr

/-- R82. -/
inductive Profile where
  | linear
  | smooth
  | easeIn
  | easeOut
  deriving DecidableEq, Repr

/-- The fade of a level-list entry (R57). -/
structure Fade where
  start  : Nat
  target : Nat
  part   : PartName
  deriving DecidableEq, Repr

/-- An entry of a level list (R57). -/
structure Entry where
  channel : Nat
  level   : Nat
  fade    : Option Fade
  deriving DecidableEq, Repr

/-- A playback's current cue (R55) with the options read at its start that its completion uses (R48, R65, R66):
whether it asks for a CUE_DONE report, its follow time if FOLLOW is present, and its label. -/
structure CueRef where
  number   : Nat
  position : Nat
  report   : Bool
  follow   : Option Nat
  label    : Word
  deriving DecidableEq, Repr

/-- The volatile fields of a playback (R55). Its five settings are words of the retained store. -/
structure Playback where
  state   : PlaybackState
  cue     : Option CueRef
  up      : FadePart
  down    : FadePart
  profile : Profile
  follow  : Option Nat
  list    : List Entry
  deriving DecidableEq, Repr

/-- A stage panel key (R75): the level of its input pin, how it is recognised, and its stability timer. -/
structure KeyState where
  input   : Bool
  pressed : Bool
  stable  : Nat
  deriving DecidableEq, Repr

/-- The stage panel input (R75). -/
structure Panel where
  go    : KeyState
  back  : KeyState
  pause : KeyState
  deriving DecidableEq, Repr

/-- An entry of a stack-index list (R44). -/
structure IndexEntry where
  cue      : Nat
  position : Nat
  deriving DecidableEq, Repr

/-! ## Output lines (08_output_lines.md) -/

/-- R124. -/
inductive LineTx where
  | silent
  | waiting
  | sending
  | startPending
  | stopping
  deriving DecidableEq, Repr

/-- An output line (R124 to R132). `count`, `mode` and `period` are what its frame latched (R126), `next` is how many
circuits of the frame have been composed, and `sent` is the frame's bytes so far; `last` is the last frame that was
sent whole. -/
structure Line where
  tx     : LineTx
  timer  : Nat
  late   : Nat
  count  : Nat
  mode   : LineMode
  period : Nat
  next   : Nat
  sent   : List Byte
  last   : List Byte
  deriving DecidableEq, Repr

/-! ## Requests, replies and reports (09_requests_replies_and_the_table_space.md) -/

/-- The result codes (R141). -/
inductive Result where
  | ok
  | notOwner
  | unmapped
  | readOnly
  | protect
  | activeBank
  | range
  | busy
  | state
  | endOfStack
  | noCue
  | unbound
  | locked
  | holdoff
  | notLive
  | mode
  | fault
  | badRequest
  | notVerified
  | playbacksLive
  deriving DecidableEq, Repr

/-- A reply waiting in a link's queue (R142). -/
structure Reply where
  unit   : Byte
  tag    : Byte
  code   : Byte
  result : Result
  data   : List Byte
  deriving DecidableEq, Repr

/-- The results of a table operation (12_formats.md). -/
inductive OpResult where
  | none
  | pass
  | checksum
  | structFail
  | fault
  | stale
  | aborted
  deriving DecidableEq, Repr

/-- The two table operations (R155). -/
inductive OpKind where
  | copy
  | verify
  deriving DecidableEq, Repr

/-- The outcomes of the power-up check (R168). -/
inductive StartResult where
  | normal
  | fallback
  | safe
  deriving DecidableEq, Repr

/-- What a report announces and carries (R144). -/
inductive ReportKind where
  | cueDone (p : PlaybackNo) (cue : Nat) (label : Word)
  | linkLive (x : Link)
  | linkDown (x : Link)
  | handover (old new : Link) (cause : Cause)
  | fault (addr : Nat)
  | opDone (op : OpKind) (res : OpResult) (addr : Nat)
  | switched (bank : Bank) (held : Bool)
  | startup (res : StartResult)
  deriving DecidableEq, Repr

/-- A report in the report queue, with its flag "earlier reports dropped" (R143). -/
structure Report where
  kind    : ReportKind
  dropped : Bool
  deriving DecidableEq, Repr

/-! ## The table operation slot (R155) -/

/-- Where the structure pass stands (R159): the thing whose words are being read. -/
inductive CheckItem where
  | cueCount
  | channel (ch : Nat)
  | patch (i : Nat)
  | region (r : Nat)
  | record (p : Nat)
  deriving DecidableEq, Repr

/-- The pass of a VERIFY (R158, R159): the CRC pass with its next offset, the reading of the two declared words, and
the structure pass with the words read so far for the item it stands at. -/
inductive VerifyPass where
  | crc (next : Nat) (crc : BitVec 32)
  | declared (crc : BitVec 32) (upper : Option Word)
  | tables (cueCount : Nat) (item : CheckItem) (got : List Word)
  deriving DecidableEq, Repr

/-- The table operation slot (R155). -/
inductive Slot where
  | empty
  | copy (src dst count done : Nat)
  | verify (bank : Bank) (pass : VerifyPass) (stale : Bool) (reads : Nat)
  deriving DecidableEq, Repr

/-! ## The state -/

/-- Everything the part holds, the queue of commands that wait for it, and the model's own two fields (the number of
free values drawn, and the mark of a follow chain that does not end). -/
@[ext]
structure State where
  /-- the commands waiting, first in, first out -/
  pending   : List Instr
  phase     : Phase
  /-- link receivers A and B -/
  links     : PerLink LinkRx
  arb       : Arbiter
  working   : Working
  /-- the table-space index of each link (R137) -/
  tableIndex : PerLink Nat
  /-- the reply queue of each link, oldest first (R142) -/
  replies   : PerLink (List Reply)
  /-- the return-line transmitter of each link: idle, or sending a frame of these bytes (R145) -/
  tx        : PerLink (Option (List Byte))
  /-- the report queue, oldest first, and its drop mark (R143) -/
  reports   : List Report
  dropMark  : Bool
  slot      : Slot
  /-- the last VERIFY result and its address (R155) -/
  lastVerify : OpResult
  lastVerifyAddr : Nat
  verified  : PerBank Bool
  /-- the retained store by table-space address (R163) -/
  store     : Table StoredWord
  /-- the shadow by bank offset, 3 to 2,626 (R149) -/
  shadow    : Table Word
  patchHold : Bool
  safeMode  : Bool
  /-- the volatile copy of the active-bank selection (R148) -/
  active    : Bank
  /-- the stack index, one list for each of stacks 1 to 16 (R44) -/
  stackIndex : Vector (List IndexEntry) 16
  faultList : List Nat
  faultOverflow : Bool
  playbacks : Vector Playback 16
  /-- the take order, latest-taken last (R59) -/
  takeOrder : List PlaybackNo
  panel     : Panel
  lines     : Vector Line 4
  /-- the previous output of each circuit 1 to 1,024, unlisted circuits at 0 (R128) -/
  prevOut   : Table Nat
  /-- the MODEL's own: how many free values have been drawn (log 4) -/
  freeDraws : Nat
  /-- the MODEL's own: a chain of follows of time 0 has not ended (log 5); it is set only inside a step -/
  followStuck : Bool
  deriving DecidableEq, Repr

/-- Why the machine stops. -/
inductive Fault where
  /-- Raised by a command that makes a cue complete, where the chain of cues that each follow at once (R65) comes back
  to itself and so does not end: the spec gives that event no end (R52, R65). Safe: the model stops where the part
  would not finish. Reachable only after a SWITCH has left a record out of the stack index (R44). -/
  | endlessFollowChain
  deriving DecidableEq, Repr

/-- Why a command has no meaning. -/
inductive Refusal where
  /-- Raised by an arm of `exec` whose command has no meaning yet; no arm raises it. Safe. -/
  | notModelled (mnemonic : String)
  deriving DecidableEq, Repr

/-! ## Full reset -/

/-- R18. -/
def LinkCounters.zero : LinkCounters := ⟨0, 0, 0, 0, 0, 0, 0, 0, 0⟩

/-- R18. -/
def LinkRx.reset : LinkRx :=
  { rx := .hunt, state := .down, acq := 0, timer := none, buffer := [], counters := LinkCounters.zero }

/-- R123's defaults. -/
def LineSettings.defaults : LineSettings := { enable := true, count := 256, mode := .coarse, period := 3 }

/-- The working copies before they are loaded: the defaults of R19, R76, R123 and R139 (R14 states it for the loss
time; log 2 for the others). -/
def Working.defaults : Working :=
  { sourceMode := .tracking, preferred := .a, reclaim := false, handoverTime := 100, lossTime := 100,
    lossFadeDelay := 0, lossFadeTime := 500, unit := 1, panelPlayback := 1, panelEnable := true,
    lines := Vector.replicate 4 LineSettings.defaults }

/-- R37, before the initialisation: K is 0 on every channel (log 2). -/
def Arbiter.reset : Arbiter :=
  { owner := .a, lock := false, holdoff := false, source := .hold, snapshot := [], elapsed := 0 }

/-- R77. -/
def FadePart.reset : FadePart := { phase := .done, delay := 0, elapsed := 0, time := 0 }

/-- R77, with the bound stack 0. -/
def Playback.reset : Playback :=
  { state := .unbound, cue := none, up := FadePart.reset, down := FadePart.reset, profile := .linear,
    follow := none, list := [] }

/-- R75: recognised as RELEASED with the stability timer restarted; the input pin is at its released level (log 2). -/
def KeyState.reset : KeyState := { input := false, pressed := false, stable := 0 }

/-- R134; the latched values of no frame are the defaults (log 2). -/
def Line.reset : Line :=
  { tx := .silent, timer := 0, late := 0, count := 256, mode := .coarse, period := 3, next := 0, sent := [],
    last := [] }

/-- The part in full reset, with the reset line asserted, and with a retained store that holds its default words
(log 1): R18, R37, R44, R77, R128, R134, R147, R153 to R155, R165, R168. -/
def State.reset : State :=
  { pending := [], phase := .inReset, links := ⟨LinkRx.reset, LinkRx.reset⟩, arb := Arbiter.reset,
    working := Working.defaults, tableIndex := ⟨0, 0⟩, replies := ⟨[], []⟩, tx := ⟨none, none⟩, reports := [],
    dropMark := false, slot := .empty, lastVerify := .none, lastVerifyAddr := 0, verified := ⟨false, false⟩,
    store := [], shadow := [], patchHold := false, safeMode := false, active := .b0,
    stackIndex := Vector.replicate 16 [], faultList := [], faultOverflow := false,
    playbacks := Vector.replicate 16 Playback.reset, takeOrder := [],
    panel := ⟨KeyState.reset, KeyState.reset, KeyState.reset⟩, lines := Vector.replicate 4 Line.reset,
    prevOut := [], freeDraws := 0, followStuck := false }

end Sys2Proof.Machine
end

