-- ==== Sys2Proof/Machine/Operands.lean ====
section
/-! DEFINITION. The forms operands take: numbers in bytes and words, the parameters of each request code, and the
places of the table space (12_formats.md). -/

namespace Sys2Proof.Machine

/-! ## Bytes and words -/

/-- The low 8 bits of a number. -/
def byteOf (n : Nat) : Byte := BitVec.ofNat 8 n

/-- The low 16 bits of a number. -/
def wordOf (n : Nat) : Word := BitVec.ofNat 16 n

/-- A flag as a word: clear 0, set 1. -/
def flagWord (b : Bool) : Word := if b then 1 else 0

/-- A word's two bytes, high byte first (00_scope.md). -/
def wordBytes (w : Word) : List Byte := [byteOf (w.toNat / 256), byteOf w.toNat]

/-- A 24-bit number's three bytes, high byte first. -/
def addrBytes (n : Nat) : List Byte := [byteOf (n / 65536), byteOf (n / 256), byteOf n]

/-- Two bytes as a word, high byte first. -/
def wordOfBytes (hi lo : Byte) : Word := wordOf (hi.toNat * 256 + lo.toNat)

/-- Three bytes as a 24-bit value, high byte first. -/
def addrOfBytes (b2 b1 b0 : Byte) : Addr := BitVec.ofNat 24 (b2.toNat * 65536 + b1.toNat * 256 + b0.toNat)

/-- Bytes as words, two bytes each; `none` where a byte is left over. -/
def wordsOfBytes : List Byte → Option (List Word)
  | [] => some []
  | [_] => none
  | hi :: lo :: rest => (wordsOfBytes rest).map (wordOfBytes hi lo :: ·)

/-! ## Requests -/

/-- A request with its parameters, one constructor for each row of the request table of R135. -/
inductive Request where
  | index (addr : Addr)
  | write (ws : List Word)
  | read (count : Word)
  | hold
  | apply
  | discard
  | copy (src dst count : Addr)
  | verify (bank : Byte)
  | switch (bank : Byte)
  | go (playback : Byte)
  | back (playback : Byte)
  | goto (playback : Byte) (cue : Word) (time : Option Word)
  | pause (playback : Byte)
  | resume (playback : Byte)
  | release (playback : Byte) (time : Option Word)
  | take
  | lock
  | unlock
  | restart
  deriving DecidableEq, Repr

/-- The request codes (12_formats.md). -/
def Request.code : Request → Byte
  | .index _ => 0x01
  | .write _ => 0x02
  | .read _ => 0x03
  | .hold => 0x10
  | .apply => 0x11
  | .discard => 0x12
  | .copy _ _ _ => 0x13
  | .verify _ => 0x14
  | .switch _ => 0x15
  | .go _ => 0x30
  | .back _ => 0x31
  | .goto _ _ _ => 0x32
  | .pause _ => 0x33
  | .resume _ => 0x34
  | .release _ _ => 0x35
  | .take => 0x40
  | .lock => 0x41
  | .unlock => 0x42
  | .restart => 0x50

/-- Checks 1 and 2 of R135: the request that a code and its parameter bytes spell, `none` where the code is no code or
the parameter bytes do not number what the code requires. -/
def parseRequest (code : Byte) (params : List Byte) : Option Request :=
  if code = 0x02 then (wordsOfBytes params).map .write
  else
    match code.toNat, params with
    | 0x01, [b2, b1, b0] => some (.index (addrOfBytes b2 b1 b0))
    | 0x03, [hi, lo] => some (.read (wordOfBytes hi lo))
    | 0x10, [] => some .hold
    | 0x11, [] => some .apply
    | 0x12, [] => some .discard
    | 0x13, [s2, s1, s0, d2, d1, d0, c2, c1, c0] =>
        some (.copy (addrOfBytes s2 s1 s0) (addrOfBytes d2 d1 d0) (addrOfBytes c2 c1 c0))
    | 0x14, [n] => some (.verify n)
    | 0x15, [n] => some (.switch n)
    | 0x30, [p] => some (.go p)
    | 0x31, [p] => some (.back p)
    | 0x32, [p, n1, n0] => some (.goto p (wordOfBytes n1 n0) none)
    | 0x32, [p, n1, n0, t1, t0] => some (.goto p (wordOfBytes n1 n0) (some (wordOfBytes t1 t0)))
    | 0x33, [p] => some (.pause p)
    | 0x34, [p] => some (.resume p)
    | 0x35, [p] => some (.release p none)
    | 0x35, [p, t1, t0] => some (.release p (some (wordOfBytes t1 t0)))
    | 0x40, [] => some .take
    | 0x41, [] => some .lock
    | 0x42, [] => some .unlock
    | 0x50, [] => some .restart
    | _, _ => none

/-- A playback parameter of R135: 1 to 16. -/
def playbackOf (b : Byte) : Option PlaybackNo :=
  if h : 1 ≤ b.toNat ∧ b.toNat ≤ 16 then some ⟨b.toNat - 1, by omega⟩ else none

/-- A bank parameter of R135: 0 or 1. -/
def bankOf (b : Byte) : Option Bank :=
  if b = 0 then some .b0 else if b = 1 then some .b1 else none

/-- Check 3 of R135: each parameter lies in its stated range. -/
def Request.inRange : Request → Bool
  | .index _ => true
  | .write ws => 1 ≤ ws.length && ws.length ≤ 250
  | .read n => 1 ≤ n.toNat && n.toNat ≤ 250
  | .copy _ _ n => 1 ≤ n.toNat && n.toNat ≤ 65536
  | .verify n | .switch n => (bankOf n).isSome
  | .go p | .back p | .pause p | .resume p | .goto p _ _ | .release p _ => (playbackOf p).isSome
  | .hold | .apply | .discard | .take | .lock | .unlock | .restart => true

/-- The two classes of R136: whether the request is taken from the owner only. -/
def Request.ownerOnly : Request → Bool
  | .index _ | .read _ | .take => false
  | .write _ | .hold | .apply | .discard | .copy _ _ _ | .verify _ | .switch _ | .go _ | .back _ | .goto _ _ _
  | .pause _ | .resume _ | .release _ _ | .lock | .unlock | .restart => true

/-- R9: unit 0 is a broadcast. -/
def broadcast (r : Req) : Bool := r.unit == 0

/-! ## The table space -/

/-- The words of a bank (12_formats.md). -/
def bankWords : Nat := 79683

/-- The first address of a bank. -/
def bankBase : Bank → Nat
  | .b0 => 0x100000
  | .b1 => 0x140000

/-- Bank offset of the cue count. -/
def cueCountOff : Nat := 2

/-- Bank offset of the channel table entry of channel `ch`. -/
def channelOff (ch : Nat) : Nat := 2 + ch

/-- Bank offset of the patch channel of circuit `c`; its proportion follows. -/
def patchOff (c : Nat) : Nat := 513 + 2 * c

/-- Bank offset of region `r`, 1 to 8. -/
def regionOff (r : Nat) : Nat := 2555 + 8 * r

/-- Bank offset of the cue record at directory position `p`. -/
def recordOff (p : Nat) : Nat := 2627 + 12 * p

/-- Bank offset of look pool entry `j`. -/
def lookOff (j : Nat) : Nat := 14147 + 2 * j

/-- Address of offset `i` of the global settings. -/
def globalAddr (i : Nat) : Nat := i

/-- Address of offset `i` of the status area. -/
def statusAddr (i : Nat) : Nat := 0x1000 + i

/-- Address of offset `i` of a playback's block. -/
def playbackAddr (p : PlaybackNo) (i : Nat) : Nat := 0x2000 + 16 * p.val + i

/-- Address of the active-bank selection word (R173). -/
def selectionAddr : Nat := 0x2100

/-- Address of point `i` of curve `g`. -/
def curveAddr (g i : Nat) : Nat := 0x3000 + 33 * g + i

/-- Address of the enable setting of line `k`; its count, mode and period follow. -/
def lineAddr (k : LineNo) : Nat := 12 + 4 * k.val

/-- Where an address of the table space lies (R140 and 12_formats.md). -/
inductive Place where
  | unmapped
  | global (i : Nat)
  | status (i : Nat)
  | playback (p : PlaybackNo) (i : Nat)
  | selection
  | curve (g i : Nat)
  /-- the live window, by BANK offset (3 to 2,626) -/
  | liveWindow (off : Nat)
  | bank (b : Bank) (off : Nat)
  deriving DecidableEq, Repr

/-- The areas of the table space. -/
def placeOf (a : Nat) : Place :=
  if a ≤ 0x1B then .global a
  else if 0x1000 ≤ a ∧ a ≤ 0x1049 then .status (a - 0x1000)
  else if h : 0x2000 ≤ a ∧ a ≤ 0x20FF then .playback ⟨(a - 0x2000) / 16, by omega⟩ ((a - 0x2000) % 16)
  else if a = 0x2100 then .selection
  else if 0x3000 ≤ a ∧ a ≤ 0x3107 then .curve ((a - 0x3000) / 33) ((a - 0x3000) % 33)
  else if 0x4000 ≤ a ∧ a ≤ 0x4A3F then .liveWindow (a - 0x4000 + 3)
  else if 0x100000 ≤ a ∧ a ≤ 0x113742 then .bank .b0 (a - 0x100000)
  else if 0x140000 ≤ a ∧ a ≤ 0x153742 then .bank .b1 (a - 0x140000)
  else .unmapped

/-- Whether an address is mapped (R140). -/
def mapped (a : Nat) : Bool :=
  match placeOf a with
  | .unmapped => false
  | _ => true

/-- Whether an address holds a retained word with parity of its own (R163). -/
def retained (a : Nat) : Bool :=
  match placeOf a with
  | .global _ | .selection | .bank _ _ => true
  | .playback _ i => i < 5
  | .curve g _ => 1 ≤ g
  | .unmapped | .status _ | .liveWindow _ => false

end Sys2Proof.Machine
end

