-- ==== Sys2Proof/Machine/Flags.lean ====
section
/-! DEFINITION. The flag words of the tables, the codes of every named value (12_formats.md) and the two check codes
(R171, R172). -/

namespace Sys2Proof.Machine

/-! ## Flag words -/

/-- Bit 0 of a channel table entry: LTP (R95). -/
def channelLtp (w : Word) : Bool := w.getLsbD 0

/-- Bit 1 of a channel table entry: independent (R95). -/
def channelIndependent (w : Word) : Bool := w.getLsbD 1

/-- R151: bits 2 to 15 of a channel table entry are 0. -/
def channelEntryOk (w : Word) : Bool := w.toNat < 4

/-- Bits 0 to 2 of a region's flags word: the curve (R109). -/
def regionCurve (w : Word) : Nat := w.toNat % 8

/-- Bit 3 of a region's flags word. -/
def regionPark (w : Word) : Bool := w.getLsbD 3

/-- Bit 4 of a region's flags word. -/
def regionProtect (w : Word) : Bool := w.getLsbD 4

/-- Bit 5 of a region's flags word. -/
def regionEcho (w : Word) : Bool := w.getLsbD 5

/-- The flags row of R151: the parts carrying no option are 0, and ECHO needs an echo base of 1 to 1,024. -/
def regionFlagsOk (w echoBase : Word) : Bool :=
  w.toNat < 64 && (!regionEcho w || (1 ≤ echoBase.toNat && echoBase.toNat ≤ 1024))

/-- The profile codes (R82). -/
def profileOf (n : Nat) : Profile :=
  match n % 4 with
  | 0 => .linear
  | 1 => .smooth
  | 2 => .easeIn
  | _ => .easeOut

/-- Bits 0 and 1 of a cue record's flags word (R40). -/
def cueProfile (w : Word) : Profile := profileOf w.toNat

/-- Bit 2 of a cue record's flags word: BLOCK (R40). -/
def cueBlock (w : Word) : Bool := w.getLsbD 2

/-- Bit 3 of a cue record's flags word. -/
def cueReport (w : Word) : Bool := w.getLsbD 3

/-- Bit 4 of a cue record's flags word: FOLLOW present. -/
def cueFollow (w : Word) : Bool := w.getLsbD 4

/-- Bit 5 of a cue record's flags word: LINK present. -/
def cueLink (w : Word) : Bool := w.getLsbD 5

/-- R50 condition 3: bits 6 to 15 of a cue record's flags word are 0. -/
def cueFlagsOk (w : Word) : Bool := w.toNat < 64

/-! ## Codes -/

def linkCode : Link → Nat
  | .a => 0
  | .b => 1

def linkOfCode (n : Nat) : Link := if n = 0 then .a else .b

def bankCode : Bank → Nat
  | .b0 => 0
  | .b1 => 1

/-- R173: the selection word holds 0 or 1. -/
def bankOfWord (w : Word) : Bank := if w = 1 then .b1 else .b0

def otherBank : Bank → Bank
  | .b0 => .b1
  | .b1 => .b0

def otherLink : Link → Link
  | .a => .b
  | .b => .a

/-- The mode codes of R19; a code outside the four is never stored. -/
def sourceModeOf (n : Nat) : SourceMode :=
  match n with
  | 0 => .isolated
  | 1 => .sole
  | 3 => .merge
  | _ => .tracking

def linkStateCode : LinkState → Nat
  | .down => 0
  | .acquiring => 1
  | .live => 2

def sourceStateCode : SourceState → Nat
  | .normal => 0
  | .handover => 1
  | .hold => 2
  | .lossFade => 3
  | .dark => 4
  | .off => 5

def causeCode : Cause → Nat
  | .take => 0
  | .loss => 1
  | .reclaim => 2
  | .ret => 3

def playbackStateCode : PlaybackState → Nat
  | .unbound => 0
  | .ready => 1
  | .fading => 2
  | .paused => 3
  | .atCue => 4
  | .releasing => 5

def partPhaseCode : PartPhase → Nat
  | .delay => 0
  | .running => 1
  | .done => 2

def opResultCode : OpResult → Nat
  | .none => 0
  | .pass => 1
  | .checksum => 2
  | .structFail => 3
  | .fault => 4
  | .stale => 5
  | .aborted => 6

def opKindCode : OpKind → Nat
  | .copy => 0
  | .verify => 1

def startResultCode : StartResult → Nat
  | .normal => 0
  | .fallback => 1
  | .safe => 2

def resultCode : Result → Byte
  | .ok => 0x00
  | .notOwner => 0x01
  | .unmapped => 0x02
  | .readOnly => 0x03
  | .protect => 0x04
  | .activeBank => 0x05
  | .range => 0x06
  | .busy => 0x07
  | .state => 0x08
  | .endOfStack => 0x09
  | .noCue => 0x0A
  | .unbound => 0x0B
  | .locked => 0x0C
  | .holdoff => 0x0D
  | .notLive => 0x0E
  | .mode => 0x0F
  | .fault => 0x10
  | .badRequest => 0x11
  | .notVerified => 0x12
  | .playbacksLive => 0x13

def slotCode : Slot → Nat
  | .empty => 0
  | .copy _ _ _ _ => 1
  | .verify _ _ _ _ => 2

/-- A count as the 24-bit count that the status area holds; what a count past 24 bits reads as is not stated (log 24). -/
def count24 (n : Nat) : Nat := if n < 0x1000000 then n else (Config.longCount n).toNat

/-- Progress of the slot (R155). -/
def slotProgress : Slot → Nat
  | .empty => 0
  | .copy _ _ _ done => count24 done
  | .verify _ _ _ reads => count24 reads

/-! ## Check codes -/

/-- `n` shifts of an unreflected CRC register of width `w` with generator `poly`, most significant bit first. -/
def crcShift {w : Nat} (poly : BitVec w) : Nat → BitVec w → BitVec w
  | 0, r => r
  | n + 1, r => crcShift poly n (if r.msb then (r <<< 1) ^^^ poly else r <<< 1)

/-- One byte into the CRC-16 register (R171). -/
def crc16Step (r : Word) (b : Byte) : Word := crcShift 0x1021 8 (r ^^^ (b.setWidth 16 <<< 8))

/-- The CRC-16 of R171. -/
def crc16 (bytes : List Byte) : Word := bytes.foldl crc16Step 0xFFFF

/-- One byte into the CRC-32 register (R172). -/
def crc32Step (r : BitVec 32) (b : Byte) : BitVec 32 := crcShift 0x04C11DB7 8 (r ^^^ (b.setWidth 32 <<< 24))

/-- The CRC-32 register before the first word (R172). -/
def crc32Init : BitVec 32 := 0xFFFFFFFF

/-- One word into the CRC-32 register: its high byte and then its low byte (R172). -/
def crc32Word (r : BitVec 32) (w : Word) : BitVec 32 := (wordBytes w).foldl crc32Step r

/-- The CRC-32 value of a register: the final XOR of R172. -/
def crc32Final (r : BitVec 32) : BitVec 32 := r ^^^ 0xFFFFFFFF

/-- A console-link frame: sync, type, payload length, payload and CRC-16 (12_formats.md). -/
def linkFrame (typ : Byte) (payload : List Byte) : List Byte :=
  let covered := typ :: wordBytes (wordOf payload.length) ++ payload
  0xE7 :: covered ++ wordBytes (crc16 covered)

/-- The payload of a reply (R142). -/
def replyPayload (r : Reply) : List Byte := r.unit :: r.tag :: r.code :: resultCode r.result :: r.data

/-- A report's kind code and its data (R144). -/
def reportData : ReportKind → Byte × List Byte
  | .cueDone p n label => (0x01, byteOf (p.val + 1) :: wordBytes (wordOf n) ++ wordBytes label)
  | .linkLive x => (0x02, [byteOf (linkCode x)])
  | .linkDown x => (0x03, [byteOf (linkCode x)])
  | .handover old new c => (0x04, [byteOf (linkCode old), byteOf (linkCode new), byteOf (causeCode c)])
  | .fault a => (0x05, addrBytes a)
  | .opDone op res a => (0x06, byteOf (opKindCode op) :: byteOf (opResultCode res) :: addrBytes a)
  | .switched b held => (0x07, [byteOf (bankCode b), if held then 1 else 0])
  | .startup res => (0x08, [byteOf (startResultCode res)])

/-- The payload of a report: the unit number when it is sent, the kind, the flags and the data. -/
def reportPayload (unit : Nat) (r : Report) : List Byte :=
  byteOf unit :: (reportData r.kind).1 :: (if r.dropped then 1 else 0) :: (reportData r.kind).2

/-- The bytes of one level in a line's mode (R130). -/
def encodeLevel (m : LineMode) (u : Nat) : List Byte :=
  match m with
  | .coarse => [byteOf ((u + 128) / 257)]
  | .fine => wordBytes (wordOf u)

/-- The first three bytes of a dimmer frame (R126). -/
def dimmerHeader (m : LineMode) (count : Nat) : List Byte :=
  [0xE7, match m with | .coarse => 0x50 | .fine => 0x51, byteOf count]

end Sys2Proof.Machine
end

