-- ==== Sys2Proof/Machine/Ops.lean ====
section
/-! DEFINITION. The operations every block uses: tables, the retained store with its parity and fault list, the link
and playback and line accessors, and the reply and report queues with the return-line transmitters. -/

namespace Sys2Proof.Machine

/-! ## Tables -/

/-- What a table holds at a number: its entry, or what an unlisted number reads as. -/
def tget {α : Type} (d : Nat → α) : Table α → Nat → α
  | [], a => d a
  | (k, v) :: t, a => if k = a then v else tget d t a

/-- Insertion of an entry in rising order. -/
def tins {α : Type} (a : Nat) (v : α) : Table α → Table α
  | [] => [(a, v)]
  | (k, w) :: t => if a < k then (a, v) :: (k, w) :: t else (k, w) :: tins a v t

/-- A write to a table; writing what an unlisted number reads as leaves the number unlisted. -/
def tset {α : Type} [DecidableEq α] (d : Nat → α) (t : Table α) (a : Nat) (v : α) : Table α :=
  let rest := t.filter (fun e => e.1 ≠ a)
  if v = d a then rest else tins a v rest

/-- The table of a function's values at `lo` to `lo + n - 1`. -/
def tofFn {α : Type} [DecidableEq α] (d : Nat → α) (lo n : Nat) (f : Nat → α) : Table α :=
  (List.range' lo n).filterMap fun i => if f i = d i then none else some (i, f i)

/-- The canonical form of a table: numbers strictly rising, and no entry equal to what an unlisted number reads as. -/
abbrev tableWf {α : Type} [DecidableEq α] (d : Nat → α) (t : Table α) : Prop :=
  t.Pairwise (fun x y => x.1 < y.1) ∧ ∀ e ∈ t, e.2 ≠ d e.1

/-- An unlisted level reads as 0. -/
def zeroLevel : Nat → Nat := fun _ => 0

/-- An unlisted word of the shadow reads as 0. -/
def zeroWord : Nat → Word := fun _ => 0

/-! ## Counters -/

/-- An increase of a counter or of a step count, saturating at 65,535 (00_scope.md, Counters). -/
def bump (n : Nat) : Nat := min 65535 (n + 1)

/-! ## Accessors -/

def PerLink.get {α : Type} (v : PerLink α) : Link → α
  | .a => v.a
  | .b => v.b

def PerLink.put {α : Type} (v : PerLink α) (x : Link) (n : α) : PerLink α :=
  match x with
  | .a => { v with a := n }
  | .b => { v with b := n }

def PerBank.get {α : Type} (v : PerBank α) : Bank → α
  | .b0 => v.b0
  | .b1 => v.b1

def PerBank.put {α : Type} (v : PerBank α) (x : Bank) (n : α) : PerBank α :=
  match x with
  | .b0 => { v with b0 := n }
  | .b1 => { v with b1 := n }

/-- The link receiver of link `x`. -/
def linkOf (s : State) (x : Link) : LinkRx := s.links.get x

def setLink (s : State) (x : Link) (l : LinkRx) : State := { s with links := s.links.put x l }

/-- Playback `p`'s volatile fields. -/
def playbackAt (s : State) (p : PlaybackNo) : Playback := s.playbacks[p]

def setPlayback (s : State) (p : PlaybackNo) (pb : Playback) : State :=
  { s with playbacks := s.playbacks.set p pb }

/-- Output line `k`. -/
def lineAt (s : State) (k : LineNo) : Line := s.lines[k]

def setLine (s : State) (k : LineNo) (l : Line) : State := { s with lines := s.lines.set k l }

/-- The working copy of line `k`'s settings. -/
def lineSettings (s : State) (k : LineNo) : LineSettings := s.working.lines[k]

/-! ## The retained store (R163) -/

/-- The default of offset `i` of the global settings (R19, R76, R99, R123, R139). -/
def globalDefault (i : Nat) : Nat :=
  match i with
  | 0 => 2
  | 3 => 100
  | 4 => 100
  | 6 => 500
  | 8 => 255
  | 9 => 1
  | 10 => 1
  | 11 => 1
  | _ =>
    if i < 12 then 0
    else match i % 4 with
      | 0 => 1
      | 1 => 256
      | 2 => 0
      | _ => 3

/-- The default of offset `i` of a playback's settings (R53). -/
def playbackDefault (i : Nat) : Nat :=
  match i with
  | 2 => 255
  | 3 => 200
  | 4 => 300
  | _ => 0

/-- A linear point of a curve (R115, R167). -/
def linearPoint (i : Nat) : Nat := min 65535 (2048 * i)

/-- The word an unlisted address of the retained store holds (log 1): the default of a setting, the linear point of a
curve, and 0 in the banks and in the selection word (R167). -/
def defaultWord (a : Nat) : Word :=
  match placeOf a with
  | .global i => wordOf (globalDefault i)
  | .playback _ i => wordOf (playbackDefault i)
  | .curve _ i => wordOf (linearPoint i)
  | .selection | .unmapped | .status _ | .liveWindow _ | .bank _ _ => 0

/-- What an unlisted address of the retained store reads as: its default word, with good parity. -/
def defaultStored (a : Nat) : StoredWord := ⟨defaultWord a, false⟩

/-- The stored word at an address, whatever its parity. -/
def stored (s : State) (a : Nat) : StoredWord := tget defaultStored s.store a

/-- A read of a retained word: `none` where it holds a parity fault, which yields no value (R163). -/
def readWord (s : State) (a : Nat) : Option Word := if (stored s a).bad then none else some (stored s a).val

/-- A rewrite of a retained word: a new value with fresh parity, and its address leaves the fault list (R166). -/
def rewrite (s : State) (a : Nat) (v : Word) : State :=
  { s with store := tset defaultStored s.store a ⟨v, false⟩, faultList := s.faultList.filter (· ≠ a) }

/-- Rewrites of several words. -/
def rewriteAll (s : State) (ws : List (Nat × Word)) : State := ws.foldl (fun t w => rewrite t w.1 w.2) s

/-- A parity fault comes about at an address (R163). -/
def breakParity (s : State) (a : Nat) (v : Word) : State :=
  { s with store := tset defaultStored s.store a ⟨v, true⟩ }

/-! ## Return lines (R145) -/

/-- A frame start on link `x`'s return line: the oldest reply of the link, otherwise, if the link is the owner, the
oldest report; otherwise the transmitter is IDLE. -/
def startFrame (s : State) (x : Link) : State :=
  match s.replies.get x with
  | r :: rest =>
      { s with replies := s.replies.put x rest, tx := s.tx.put x (some (linkFrame 0x30 (replyPayload r))) }
  | [] =>
    if s.arb.owner = x then
      match s.reports with
      | r :: rest => { s with reports := rest, tx := s.tx.put x (some (linkFrame 0x40 (reportPayload s.working.unit r))) }
      | [] => { s with tx := s.tx.put x none }
    else { s with tx := s.tx.put x none }

/-- The moments at which an idle transmitter looks for a frame (R145): it starts none before the power-up check has
ended. -/
def startIfIdle (s : State) (x : Link) : State :=
  if s.phase = .running ∧ s.tx.get x = none then startFrame s x else s

/-! ## Reports and replies -/

/-- The offer of a report to the report queue: appended with the drop mark, or dropped with the mark set (R143). -/
def enqueueReport (s : State) (k : ReportKind) : State :=
  if s.reports.length < 32 then { s with reports := s.reports ++ [⟨k, s.dropMark⟩], dropMark := false }
  else { s with dropMark := true }

/-- The offer of a report, at which an idle transmitter of the owner's line starts a frame (R143, R145). -/
def offerReport (s : State) (k : ReportKind) : State :=
  let s := enqueueReport s k
  startIfIdle s s.arb.owner

/-- A reply enters its link's queue, at which an idle transmitter of that line starts a frame (R142, R145). -/
def queueReply (s : State) (x : Link) (r : Reply) : State :=
  startIfIdle { s with replies := s.replies.put x (s.replies.get x ++ [r]) } x

/-! ## The fault list (R165) -/

/-- The offer of an address to the fault list. -/
def offerFault (s : State) (a : Nat) : State :=
  if a ∈ s.faultList then s
  else if s.faultList.length < 16 then offerReport { s with faultList := s.faultList ++ [a] } (.fault a)
  else { s with faultOverflow := true }

/-- Several offers in order. -/
def offerFaults (s : State) (as : List Nat) : State := as.foldl offerFault s

/-! ## Outcomes -/

/-- The outcome of a command: the state it leaves, unless a follow chain in it has no end (log 5). -/
def settle (s : State) : Host.Outcome State Fault Refusal :=
  if s.followStuck then .fault .endlessFollowChain else .next s

end Sys2Proof.Machine
end

