-- ==== Sys2Proof/Machine/Arbiter.lean ====
section
/-! DEFINITION. The control arbiter (02_control_ownership_and_the_console_contribution.md): the mode target and the
console contribution, changes of owner, handover triggers, hold and loss fade, and what it does on each notice. -/

namespace Sys2Proof.Machine

/-! ## The console contribution -/

/-- The fraction of an elapsed count against a duration read live (R32, R80). -/
def liveFraction (e d : Nat) : Nat := if d = 0 ∨ e ≥ d then 4096 else e * 4096 / d

/-- The level between a start and a target at a weight of 4,096ths (R32, R83). -/
def levelToward (start target w : Nat) : Nat :=
  if target ≥ start then start + (target - start) * w / 4096 else start - (start - target) * w / 4096

/-- An 8-bit level in level units (R85). -/
def widen (x : Nat) : Nat := 257 * x

/-- A link's buffer entry (R8). -/
def bufferLevel (s : State) (x : Link) (ch : Nat) : Nat := tget zeroLevel (linkOf s x).buffer ch

def isLive (s : State) (x : Link) : Bool := (linkOf s x).state == .live

/-- The mode target T (R28). -/
def modeTarget (s : State) (ch : Nat) : Nat :=
  match s.working.sourceMode with
  | .isolated => 0
  | .sole | .tracking => widen (bufferLevel s s.arb.owner ch)
  | .merge =>
      widen (max (if isLive s .a then bufferLevel s .a ch else 0) (if isLive s .b then bufferLevel s .b ch else 0))

/-- S of a channel. -/
def snapshotLevel (s : State) (ch : Nat) : Nat := tget zeroLevel s.arb.snapshot ch

/-- The console contribution K (R29, R32, R34). -/
def contribution (s : State) (ch : Nat) : Nat :=
  match s.arb.source with
  | .normal => modeTarget s ch
  | .handover =>
      levelToward (snapshotLevel s ch) (modeTarget s ch) (liveFraction s.arb.elapsed s.working.handoverTime)
  | .hold => snapshotLevel s ch
  | .lossFade => levelToward (snapshotLevel s ch) 0 (liveFraction s.arb.elapsed s.working.lossFadeTime)
  | .dark => 0
  | .off => 0

/-- The snapshot of the current K of all 512 channels (R31, R33). -/
def snapshotNow (s : State) : Table Nat := tofFn zeroLevel 1 512 (contribution s)

/-! ## Changes of the console source -/

/-- The state a completed handover passes to (R32). -/
def handoverDone (m : SourceMode) : SourceState := if m = .isolated then .off else .normal

/-- R31: whether the console is present. -/
def consolePresent (s : State) : Bool :=
  match s.working.sourceMode with
  | .merge => isLive s .a || isLive s .b
  | .sole | .tracking | .isolated => isLive s s.arb.owner

/-- Entry into HOLD with the snapshot `k` of K (R33). -/
def enterHold (s : State) (k : Table Nat) : State :=
  { s with arb := { s.arb with source := .hold, snapshot := k, elapsed := 0 } }

/-- A handover trigger (R31). `k` is K of every channel as it stood just before the event that makes the trigger
(R26, R89). -/
def trigger (s : State) (k : Table Nat) : State :=
  if s.working.sourceMode = .isolated ∨ consolePresent s then
    { s with arb := { s.arb with
        source := if s.working.handoverTime = 0 then handoverDone s.working.sourceMode else .handover,
        snapshot := k, elapsed := 0 } }
  else
    match s.arb.source with
    | .hold | .lossFade | .dark => s
    | .normal | .handover | .off => enterHold s k

/-- A change of owner (R21), less its trigger: the lock, the holdoff, the idle line of the new owner (R145) and the
HANDOVER report. A waiting report's frame starts on that line before the HANDOVER report is offered (DESIGN CHOICE,
log 23). -/
def changeOwner (s : State) (x : Link) (c : Cause) : State :=
  let old := s.arb.owner
  let s := { s with arb := { s.arb with owner := x, lock := false, holdoff := true } }
  offerReport (startIfIdle s x) (.handover old x c)

/-- A return (R26), less its trigger: a change of owner, or the report alone where `x` already owns. -/
def returnTo (s : State) (x : Link) : State :=
  if s.arb.owner = x then offerReport s (.handover x x .ret) else changeOwner s x .ret

/-- R26: whether a link that is LIVE returns. That the owner link is not LIVE is tested after the change of state that the
notice is of, so that the owner's own change does not count (DEDUCED, log 25). -/
def returns (s : State) (x : Link) : Bool :=
  (s.working.sourceMode != .sole || x == s.working.preferred) &&
    (s.arb.source == .hold || s.arb.source == .lossFade || s.arb.source == .dark || !isLive s s.arb.owner)

/-- R27: whether the preferred link's change into LIVE reclaims. -/
def reclaims (s : State) (x : Link) : Bool :=
  x == s.working.preferred && s.working.reclaim && s.working.sourceMode != .sole && s.arb.owner != x && !s.arb.lock

/-- The notice that link `x` has changed into LIVE (R26, R27, R31); `k` is K as it stood before the change. The arbiter
acts on notices once it is initialised (R37). -/
def noticeLive (s : State) (x : Link) (k : Table Nat) : State :=
  if s.phase = .inReset then s
  else if returns s x then trigger (returnTo s x) k
  else if reclaims s x then trigger (changeOwner s x .reclaim) k
  else if s.working.sourceMode = .merge then trigger s k
  else s

/-- The notice that link `x` has changed into DOWN (R25, R31). -/
def noticeDown (s : State) (x : Link) (k : Table Nat) : State :=
  if s.phase = .inReset then s
  else if s.arb.owner = x then
    let s := { s with arb := { s.arb with lock := false } }
    if s.working.sourceMode ≠ .sole ∧ isLive s (otherLink x) then trigger (changeOwner s (otherLink x) .loss) k
    else enterHold s k
  else if s.working.sourceMode = .merge then trigger s k
  else s

/-- R24: a good level frame on the owner's link clears the holdoff. -/
def clearHoldoff (s : State) (x : Link) : State :=
  if s.arb.owner = x then { s with arb := { s.arb with holdoff := false } } else s

/-! ## The arbiter's step expiry -/

/-- Entry into LOSS_FADE; a loss fade time of 0 passes straight to DARK (R34). -/
def enterLossFade (s : State) : State :=
  { s with arb := { s.arb with source := if s.working.lossFadeTime = 0 then .dark else .lossFade, elapsed := 0 } }

/-- Whether the next step expiry completes the handover (R32). -/
def handoverDue (s : State) : Bool :=
  s.phase != .inReset && s.arb.source == .handover && s.working.handoverTime ≤ bump s.arb.elapsed

/-- Whether the next step expiry ends the hold (R33). -/
def lossFadeDue (s : State) : Bool :=
  s.phase != .inReset && s.arb.source == .hold && s.working.lossFadeDelay != 0 &&
    s.working.lossFadeDelay ≤ bump s.arb.elapsed

/-- Whether the next step expiry completes the loss fade (R34). -/
def darkDue (s : State) : Bool :=
  s.phase != .inReset && s.arb.source == .lossFade && s.working.lossFadeTime ≤ bump s.arb.elapsed

/-- The arbiter's step expiry (R29, R32 to R34). -/
def arbiterTick (s : State) : State :=
  if s.phase = .inReset then s
  else
    let counted := { s with arb := { s.arb with elapsed := bump s.arb.elapsed } }
    match s.arb.source with
    | .handover =>
        if handoverDue s then
          { counted with arb := { counted.arb with source := handoverDone s.working.sourceMode } }
        else counted
    | .hold => if lossFadeDue s then enterLossFade counted else counted
    | .lossFade =>
        if darkDue s then { counted with arb := { counted.arb with source := .dark } } else counted
    | .normal | .dark | .off => s

/-! ## Writes that move the source (R35, R36) -/

/-- R35: where a new source mode places ownership. -/
def placeOwner (s : State) : State :=
  match s.working.sourceMode with
  | .sole => if s.arb.owner = s.working.preferred then s else changeOwner s s.working.preferred .reclaim
  | .tracking | .merge | .isolated =>
      if !isLive s s.arb.owner && isLive s (otherLink s.arb.owner) then changeOwner s (otherLink s.arb.owner) .ret
      else s

/-- R36: in SOLE the preferred link just written takes ownership if it differs from the owner. -/
def preferredMoves (s : State) : Bool := s.working.sourceMode == .sole && s.arb.owner != s.working.preferred

/-- The arbiter acts on the words a WRITE took, as one change (R19, R35, R36): `newMode` says that the source mode took a
new value, `newPreferred` that the preferred link's word was written, and `k` is K before the WRITE. -/
def arbiterWritten (s : State) (newMode newPreferred : Bool) (k : Table Nat) : State :=
  let s₁ := if newMode then placeOwner s else s
  let moves := newPreferred && preferredMoves s₁
  let s₂ := if moves then changeOwner s₁ s₁.working.preferred .reclaim else s₁
  if newMode || moves then trigger s₂ k else s₂

/-! ## TAKE, LOCK, UNLOCK (R22, R23) -/

/-- R22. -/
def takeControl (s : State) (x : Link) : State × Result :=
  if s.working.sourceMode = .sole then (s, .mode)
  else if s.arb.owner = x then (s, .ok)
  else if s.arb.lock then (s, .locked)
  else if s.arb.holdoff then (s, .holdoff)
  else if !isLive s x then (s, .notLive)
  else (trigger (changeOwner s x .take) (snapshotNow s), .ok)

/-- R23. -/
def lockControl (s : State) : State × Result :=
  if isLive s s.arb.owner then ({ s with arb := { s.arb with lock := true } }, .ok) else (s, .notLive)

/-- R23. -/
def unlockControl (s : State) : State × Result := ({ s with arb := { s.arb with lock := false } }, .ok)

/-! ## Initialisation (R37) -/

/-- The arbiter's initialisation at the end of the repair of the settings, with the return of a link it finds LIVE. -/
def arbiterInit (s : State) : State :=
  let s := { s with arb :=
    { owner := s.working.preferred, lock := false, holdoff := false,
      source := if s.working.sourceMode = .isolated then .off else .hold, snapshot := [], elapsed := 0 } }
  let pref := s.working.preferred
  if isLive s pref then (if returns s pref then trigger (returnTo s pref) (snapshotNow s) else s)
  else if isLive s (otherLink pref) && returns s (otherLink pref) then
    trigger (returnTo s (otherLink pref)) (snapshotNow s)
  else s

end Sys2Proof.Machine
end

