-- ==== Sys2Proof/Machine/CueStore.lean ====
section
/-! DEFINITION. The cue store of a bank and the stack index (03_cue_stacks_and_cue_records.md): reading a record and
its look, building the index, and the lookups of R45 to R47. -/

namespace Sys2Proof.Machine

/-- A retained word of a bank, by its offset. -/
def readBank (s : State) (b : Bank) (off : Nat) : Option Word := readWord s (bankBase b + off)

/-! ## The stack index (R44) -/

/-- Insertion of an entry in rising cue number; an entry whose number is already listed is left out. -/
def insertIndex (e : IndexEntry) : List IndexEntry → List IndexEntry
  | [] => [e]
  | f :: t => if e.cue < f.cue then e :: f :: t else if e.cue = f.cue then f :: t else f :: insertIndex e t

/-- The index with an entry added to the list of stack `st`. -/
def addIndex (ix : Vector (List IndexEntry) 16) (st : Nat) (e : IndexEntry) : Vector (List IndexEntry) 16 :=
  if h : 1 ≤ st ∧ st ≤ 16 then ix.set (st - 1) (insertIndex e ix[st - 1]) else ix

/-- The list of stack `st`; stack 0 is empty (R45). -/
def stackList (s : State) (st : Nat) : List IndexEntry :=
  if h : 1 ≤ st ∧ st ≤ 16 then s.stackIndex[st - 1] else []

/-- The addresses among `as` whose words hold a parity fault, in order. -/
def faultedOf (s : State) (as : List Nat) : List Nat := as.filter fun a => (stored s a).bad

/-- One record read for the index: its stack and cue number words are read; a record with a faulted one is left out and
the faulted addresses are offered (log 12). -/
def indexRecord (b : Bank) (s : State) (pos : Nat) : State :=
  let st := bankBase b + recordOff pos
  match readWord s st, readWord s (st + 1) with
  | some stack, some cue =>
      { s with stackIndex := addIndex s.stackIndex stack.toNat ⟨cue.toNat, pos⟩ }
  | _, _ => offerFaults s (faultedOf s [st, st + 1])

/-- The build of the stack index from bank `b` (R44). -/
def buildIndex (s : State) (b : Bank) : State :=
  let s := { s with stackIndex := Vector.replicate 16 [] }
  match readBank s b cueCountOff with
  | none => offerFault s (bankBase b + cueCountOff)
  | some n => (List.range n.toNat).foldl (indexRecord b) s

/-! ## Lookups (R45, R46, R47) -/

/-- The first cue of a stack (R45). -/
def firstCue (s : State) (st : Nat) : Option IndexEntry := (stackList s st).head?

/-- The cue numbered `n` of a stack (R45). -/
def namedCue (s : State) (st n : Nat) : Option IndexEntry := (stackList s st).find? (·.cue == n)

/-- The next higher cue number of a stack (R46). -/
def higherCue (s : State) (st n : Nat) : Option IndexEntry := (stackList s st).find? (fun e => n < e.cue)

/-- The next lower cue number of a stack (R47). -/
def previousCue (s : State) (st n : Nat) : Option IndexEntry :=
  ((stackList s st).filter (fun e => e.cue < n)).getLast?

/-- What a lookup that reads the store answers: a parity fault at an address, or the cue found if there is one. -/
inductive Lookup where
  | fault (addr : Nat)
  | found (e : Option IndexEntry)
  deriving DecidableEq, Repr

/-- The next cue of the cue numbered `n` at position `pos` of stack `st` (R46), in the active bank. -/
def nextCue (s : State) (st n pos : Nat) : Lookup :=
  let base := recordOff pos
  match readBank s s.active (base + 8) with
  | none => .fault (bankBase s.active + base + 8)
  | some flags =>
    if cueLink flags then
      match readBank s s.active (base + 10) with
      | none => .fault (bankBase s.active + base + 10)
      | some link => .found (namedCue s st link.toNat)
    else .found (higherCue s st n)

/-! ## The read of a cue start (R48) -/

/-- A cue record and its look as a cue start reads them. -/
structure CueData where
  upTime    : Nat
  upDelay   : Nat
  downTime  : Nat
  downDelay : Nat
  profile   : Profile
  block     : Bool
  report    : Bool
  follow    : Option Nat
  label     : Word
  /-- channel and 8-bit level of each look entry -/
  look      : List (Nat × Nat)
  deriving DecidableEq, Repr

/-- The twelve addresses of a record of the active bank. -/
def recordAddrs (s : State) (pos : Nat) : List Nat :=
  (List.range 12).map (bankBase s.active + recordOff pos + ·)

/-- The addresses of the words of a look, in ascending order. -/
def lookAddrs (s : State) (off len : Nat) : List Nat :=
  (List.range (2 * len)).map (bankBase s.active + lookOff off + ·)

/-- Words in pairs. -/
def pairs : List Nat → List (Nat × Nat)
  | a :: b :: t => (a, b) :: pairs t
  | _ => []

/-- The addresses a cue start reads: the record's twelve words, and its look where the look's place could be read. -/
def cueAddrs (s : State) (pos : Nat) : List Nat :=
  let base := bankBase s.active + recordOff pos
  match readWord s (base + 2), readWord s (base + 3) with
  | some off, some len => recordAddrs s pos ++ lookAddrs s off.toNat len.toNat
  | _, _ => recordAddrs s pos

/-- The values of a record read without fault. -/
def cueData (s : State) (pos : Nat) : CueData :=
  let w (i : Nat) : Word := (stored s (bankBase s.active + recordOff pos + i)).val
  { upTime := (w 4).toNat, upDelay := (w 5).toNat, downTime := (w 6).toNat, downDelay := (w 7).toNat,
    profile := cueProfile (w 8), block := cueBlock (w 8), report := cueReport (w 8),
    follow := if cueFollow (w 8) then some (w 9).toNat else none, label := w 11,
    look := pairs ((lookAddrs s (w 2).toNat (w 3).toNat).map fun a => (stored s a).val.toNat) }

/-- The read of a cue start (R48): the record and its look, or the addresses of the faulted words met. -/
def readCue (s : State) (pos : Nat) : Except (List Nat) CueData :=
  match faultedOf s (cueAddrs s pos) with
  | [] => .ok (cueData s pos)
  | bad => .error bad

end Sys2Proof.Machine
end

