-- ==== Sys2Proof/Machine/Fade.lean ====
section
/-! DEFINITION. The fade engine (04_playbacks_and_the_fade_engine.md, 05_fade_arithmetic.md): the fraction, the
profiles and the current level, fade set-up, advance and completion, follows, the commands, and the stage panel. -/

namespace Sys2Proof.Machine

/-! ## Fade arithmetic (R80, R82, R83) -/

/-- The fraction of a fade part (R80). -/
def partFraction (f : FadePart) : Nat :=
  match f.phase with
  | .delay => 0
  | .running => liveFraction f.elapsed f.time
  | .done => 4096

/-- The weight of a fraction under a profile (R82). -/
def weight (p : Profile) (q : Nat) : Nat :=
  match p with
  | .linear => q
  | .smooth => q * q * (12288 - 2 * q) / 16777216
  | .easeIn => q * q / 4096
  | .easeOut => 4096 - (4096 - q) * (4096 - q) / 4096

/-- A playback's part by name. -/
def partOf (pb : Playback) : PartName → FadePart
  | .up => pb.up
  | .down => pb.down

/-- The current level of an entry (R58). -/
def currentLevel (pb : Playback) (e : Entry) : Nat :=
  match e.fade with
  | none => e.level
  | some f => levelToward f.start f.target (weight pb.profile (partFraction (partOf pb f.part)))

/-! ## The set-up of a fade (R60 to R63) -/

/-- An entry taken from its current level toward a target (R60): fading on the part of its direction, or at rest. While it
fades, its level field holds the level that it started from, which nothing reads (DESIGN CHOICE, log 26). -/
def aim (ch cur target : Nat) : Entry :=
  if cur < target then { channel := ch, level := cur, fade := some ⟨cur, target, .up⟩ }
  else if target < cur then { channel := ch, level := cur, fade := some ⟨cur, target, .down⟩ }
  else { channel := ch, level := cur, fade := none }

/-- Whether an entry is at rest at level 0. -/
def restsAtZero (e : Entry) : Bool := e.fade.isNone && e.level == 0

/-- The level a look gives a channel, in level units. -/
def lookTarget (look : List (Nat × Nat)) (ch : Nat) : Option Nat :=
  (look.find? (·.1 == ch)).map fun l => widen l.2

/-- What a set-up makes of an entry of the list (R60, R61). -/
def reaim (pb : Playback) (look : List (Nat × Nat)) (block : Bool) (e : Entry) : Entry :=
  match lookTarget look e.channel with
  | some target => aim e.channel (currentLevel pb e) target
  | none =>
    if block then aim e.channel (currentLevel pb e) 0
    else
      match e.fade with
      | none => e
      | some f => aim e.channel (currentLevel pb e) f.target

/-- Insertion of a new entry in channel order; a channel that is listed keeps its entry. -/
def insertEntry (e : Entry) : List Entry → List Entry
  | [] => [e]
  | f :: t =>
    if e.channel < f.channel then e :: f :: t
    else if e.channel = f.channel then f :: t
    else f :: insertEntry e t

/-- A look channel without an entry: a new entry from 0 if its target is above 0 (R60). -/
def addLook (l : List Entry) (look : Nat × Nat) : List Entry :=
  if look.2 = 0 ∨ l.any (·.channel == look.1) then l else insertEntry (aim look.1 0 (widen look.2)) l

/-- The level list a set-up makes (R60, R61): the look's channels without an entry join it, every other entry is taken
toward its new target, and what settled at 0 leaves it. A new channel is placed among the re-aimed entries before those
at 0 are removed, so that a channel fading to its end at 0 is not given a second entry. -/
def setUpList (pb : Playback) (look : List (Nat × Nat)) (block : Bool) : List Entry :=
  (look.foldl addLook (pb.list.map (reaim pb look block))).filter fun e => !restsAtZero e

/-- Whether a list has an entry fading on a part. -/
def hasPart (l : List Entry) (n : PartName) : Bool :=
  l.any fun e => match e.fade with
    | some f => f.part == n
    | none => false

/-- A part placed at a set-up (R62). -/
def placePart (busy : Bool) (delay time : Nat) : FadePart :=
  if !busy then { phase := .done, delay := 0, elapsed := 0, time := time }
  else if 0 < delay then { phase := .delay, delay := delay, elapsed := 0, time := time }
  else if 0 < time then { phase := .running, delay := 0, elapsed := 0, time := time }
  else { phase := .done, delay := 0, elapsed := 0, time := time }

/-- What takes a cue (R63): a GO or a follow, a BACK with its back time, or a GOTO with a time. -/
inductive TakenBy where
  | cue
  | back (time : Nat)
  | timed (time : Nat)
  deriving DecidableEq, Repr

/-- The timing and profile of a set-up (R63): up time, up delay, down time, down delay, profile. -/
def timing (d : CueData) : TakenBy → (Nat × Nat) × (Nat × Nat) × Profile
  | .cue => ((d.upTime, d.upDelay), (d.downTime, d.downDelay), d.profile)
  | .back t => ((t, 0), (t, 0), .linear)
  | .timed t => ((t, 0), (t, 0), d.profile)

/-- The playback after a fade set-up, before any completion that follows at once (R60 to R62). -/
def setUp (pb : Playback) (d : CueData) (e : IndexEntry) (by_ : TakenBy) : Playback :=
  let l := setUpList pb d.look d.block
  let t := timing d by_
  { state := .fading,
    cue := some { number := e.cue, position := e.position, report := d.report, follow := d.follow, label := d.label },
    up := placePart (hasPart l .up) t.1.2 t.1.1,
    down := placePart (hasPart l .down) t.2.1.2 t.2.1.1,
    profile := t.2.2, follow := none, list := l }

/-- Both parts are DONE. -/
def partsDone (pb : Playback) : Bool := pb.up.phase == .done && pb.down.phase == .done

/-- The take order after a set-up (R59): the playback goes to its end, or leaves it where its list is empty. -/
def retake (order : List PlaybackNo) (p : PlaybackNo) (l : List Entry) : List PlaybackNo :=
  let rest := order.filter (· ≠ p)
  if l.isEmpty then rest else rest ++ [p]

/-- The take order after a list may have become empty (R59). -/
def dropIfEmpty (order : List PlaybackNo) (p : PlaybackNo) (l : List Entry) : List PlaybackNo :=
  if l.isEmpty then order.filter (· ≠ p) else order

/-! ## Completion and follows (R64 to R66) -/

/-- An entry at completion: at rest at its target (R64). -/
def rested (e : Entry) : Entry :=
  match e.fade with
  | none => e
  | some f => { channel := e.channel, level := f.target, fade := none }

/-- The list at completion (R64). -/
def completedList (l : List Entry) : List Entry := (l.map rested).filter fun e => !restsAtZero e

/-- The effects of completion in FADING (R64): entries at rest, AT_CUE, the follow timer, and CUE_DONE. A follow of time
0 then stands at 0, and expires within the completion (R65). -/
def complete (s : State) (p : PlaybackNo) : State :=
  let pb := playbackAt s p
  let l := completedList pb.list
  let pb' := { pb with list := l, state := .atCue, follow := pb.cue.bind (·.follow) }
  let s := { setPlayback s p pb' with takeOrder := dropIfEmpty s.takeOrder p l }
  match pb.cue with
  | some c => if c.report then offerReport s (.cueDone p c.number c.label) else s
  | none => s

/-- The bound stack of a playback, read from the retained store (R74). -/
def boundStack (s : State) (p : PlaybackNo) : Option Word := readWord s (playbackAddr p 0)

/-- What the start of a cue answers before any completion: refused, or set up. -/
inductive Started where
  | refused (r : Result)
  | setUp
  deriving DecidableEq, Repr

/-- The start of a cue (R48) and its set-up, less the completion that may follow at once. A parity fault leaves the
playback as it was. -/
def beginCue (s : State) (p : PlaybackNo) (e : IndexEntry) (by_ : TakenBy) : State × Started :=
  match readCue s e.position with
  | .error bad => (offerFaults s bad, .refused .fault)
  | .ok d =>
    let pb := setUp (playbackAt s p) d e by_
    ({ setPlayback s p pb with takeOrder := retake s.takeOrder p pb.list }, .setUp)

/-- The next cue of playback `p` is taken, for a GO from FADING, PAUSED or AT_CUE and for a follow (R46, R65, R67). The
bound stack is read before the current record's flags and link words (DESIGN CHOICE, log 12). -/
def beginNext (s : State) (p : PlaybackNo) : State × Started :=
  match boundStack s p, (playbackAt s p).cue with
  | none, _ => (offerFault s (playbackAddr p 0), .refused .fault)
  | some _, none => (s, .refused .endOfStack)
  | some st, some c =>
    match nextCue s st.toNat c.number c.position with
    | .fault a => (offerFault s a, .refused .fault)
    | .found none => (s, .refused .endOfStack)
    | .found (some e) => beginCue s p e .cue

/-- A follow timer stopped. -/
def clearFollow (s : State) (p : PlaybackNo) : State := setPlayback s p { playbackAt s p with follow := none }

/-- Completion, with the chain of cues that each follow and complete at once (R65). `fuel` bounds the chain; a chain that
uses it up has no end (log 5). -/
def completeChain : Nat → State → PlaybackNo → State
  | 0, s, _ => { s with followStuck := true }
  | fuel + 1, s, p =>
    let s₁ := complete s p
    if (playbackAt s₁ p).follow = some 0 then
      let r := beginNext (clearFollow s₁ p) p
      if r.2 = .setUp ∧ partsDone (playbackAt r.1 p) then completeChain fuel r.1 p else r.1
    else s₁

/-- The bound of a follow chain. A chain that ends takes at most three rounds of the 960 cues a bank can hold (log 5). -/
def chainFuel : Nat := 3840

/-- The completion that follows a set-up at once where both parts are DONE (R62). -/
def completeIfDone (s : State) (p : PlaybackNo) : State :=
  if partsDone (playbackAt s p) then completeChain chainFuel s p else s

/-- A cue started, with its set-up and the completion that may follow at once (R62). -/
def finishStart (r : State × Started) (p : PlaybackNo) : State × Result :=
  match r.2 with
  | .refused c => (r.1, c)
  | .setUp => (completeIfDone r.1 p, .ok)

/-- A follow expiry (R65): follow remaining becomes absent, and the next cue is taken, or nothing further happens. -/
def followExpires (s : State) (p : PlaybackNo) : State := (finishStart (beginNext (clearFollow s p) p) p).1

/-! ## The commands (R67 to R71) -/

/-- The first cue of the bound stack is taken (R67). -/
def beginFirst (s : State) (p : PlaybackNo) : State × Started :=
  match boundStack s p with
  | none => (offerFault s (playbackAddr p 0), .refused .fault)
  | some st =>
    match firstCue s st.toNat with
    | none => (s, .refused .noCue)
    | some e => beginCue s p e .cue

/-- GO (R67). -/
def goPlayback (s : State) (p : PlaybackNo) : State × Result :=
  match (playbackAt s p).state with
  | .unbound => (s, .unbound)
  | .ready | .releasing => finishStart (beginFirst s p) p
  | .fading | .paused | .atCue => finishStart (beginNext s p) p

/-- The previous cue of the current cue is taken with the back time (R68). The bound stack is read first, then the back
time once a previous cue has been found (log 12). -/
def beginBack (s : State) (p : PlaybackNo) : State × Started :=
  match boundStack s p, (playbackAt s p).cue with
  | none, _ => (offerFault s (playbackAddr p 0), .refused .fault)
  | some _, none => (s, .refused .endOfStack)
  | some st, some c =>
    match previousCue s st.toNat c.number with
    | none => (s, .refused .endOfStack)
    | some e =>
      match readWord s (playbackAddr p 3) with
      | none => (offerFault s (playbackAddr p 3), .refused .fault)
      | some t => beginCue s p e (.back t.toNat)

/-- BACK (R68). -/
def backPlayback (s : State) (p : PlaybackNo) : State × Result :=
  match (playbackAt s p).state with
  | .fading | .paused | .atCue => finishStart (beginBack s p) p
  | .unbound | .ready | .releasing => (s, .state)

/-- The named cue is taken (R69). -/
def beginNamed (s : State) (p : PlaybackNo) (n : Nat) (t : Option Word) : State × Started :=
  match boundStack s p with
  | none => (offerFault s (playbackAddr p 0), .refused .fault)
  | some st =>
    match namedCue s st.toNat n with
    | none => (s, .refused .noCue)
    | some e => beginCue s p e (match t with | none => .cue | some t => .timed t.toNat)

/-- GOTO (R69). For cue number 0 the bound stack is not read, and in UNBOUND cue number 0 is refused with UNBOUND, not with
NO_CUE (DESIGN CHOICE, log 12). -/
def gotoPlayback (s : State) (p : PlaybackNo) (n : Nat) (t : Option Word) : State × Result :=
  match (playbackAt s p).state with
  | .unbound => (s, .unbound)
  | .ready | .fading | .paused | .atCue | .releasing =>
    if n = 0 then (s, .noCue) else finishStart (beginNamed s p n t) p

/-- PAUSE (R70). -/
def pausePlayback (s : State) (p : PlaybackNo) : State × Result :=
  let pb := playbackAt s p
  match pb.state with
  | .fading => (setPlayback s p { pb with state := .paused }, .ok)
  | .atCue => if pb.follow.isSome then (clearFollow s p, .ok) else (s, .state)
  | .unbound | .ready | .paused | .releasing => (s, .state)

/-- RESUME (R70). -/
def resumePlayback (s : State) (p : PlaybackNo) : State × Result :=
  let pb := playbackAt s p
  match pb.state with
  | .paused => (setPlayback s p { pb with state := .fading }, .ok)
  | .unbound | .ready | .fading | .atCue | .releasing => (s, .state)

/-- The list of a release set-up (R71): every entry toward 0 on the DOWN part; what stands at 0 leaves. -/
def releaseList (pb : Playback) : List Entry :=
  (pb.list.map fun e => aim e.channel (currentLevel pb e) 0).filter fun e => !restsAtZero e

/-- The release set-up (R71), with time `d`. The UP part keeps its remaining delay, elapsed count and time (DESIGN CHOICE,
log 26); the DOWN part starts at elapsed 0 (DEDUCED from R62 and R84, log 26). -/
def releaseSetUp (pb : Playback) (d : Nat) : Playback :=
  let l := releaseList pb
  { pb with
    state := .releasing, list := l, profile := .linear, follow := none,
    up := { pb.up with phase := .done },
    down := placePart (!l.isEmpty) 0 d }

/-- Release completion (R72). -/
def releaseComplete (s : State) (p : PlaybackNo) : State :=
  { setPlayback s p { playbackAt s p with list := [], cue := none, state := .ready } with
    takeOrder := s.takeOrder.filter (· ≠ p) }

/-- A release with time `d` of a playback that holds a cue (R71, R72). -/
def releaseWith (s : State) (p : PlaybackNo) (d : Nat) : State :=
  let pb := releaseSetUp (playbackAt s p) d
  let s := { setPlayback s p pb with takeOrder := dropIfEmpty s.takeOrder p pb.list }
  if partsDone pb then releaseComplete s p else s

/-- RELEASE (R71). -/
def releasePlayback (s : State) (p : PlaybackNo) (t : Option Word) : State × Result :=
  match (playbackAt s p).state with
  | .ready | .unbound => (s, .ok)
  | .fading | .paused | .atCue | .releasing =>
    match t with
    | some t => (releaseWith s p t.toNat, .ok)
    | none =>
      match readWord s (playbackAddr p 4) with
      | none => (offerFault s (playbackAddr p 4), .fault)
      | some t => (releaseWith s p t.toNat, .ok)

/-! ## Step expiries (R64, R65, R72) -/

/-- The advance of one part (R64). -/
def advancePart (f : FadePart) : FadePart :=
  match f.phase with
  | .done => f
  | .delay =>
    if f.delay ≤ 1 then
      { f with delay := 0, elapsed := 0, phase := if f.time = 0 then .done else .running }
    else { f with delay := f.delay - 1 }
  | .running =>
    let e := min (f.elapsed + 1) f.time
    { f with elapsed := e, phase := if liveFraction e f.time = 4096 then .done else .running }

/-- Both parts advanced. -/
def advanceParts (pb : Playback) : Playback := { pb with up := advancePart pb.up, down := advancePart pb.down }

/-- One playback at a step expiry of the fade engine (R64, R65, R72). -/
def tickPlayback (s : State) (p : PlaybackNo) : State :=
  let pb := playbackAt s p
  match pb.state with
  | .fading =>
    let s := setPlayback s p (advanceParts pb)
    if partsDone (advanceParts pb) then completeChain chainFuel s p else s
  | .releasing =>
    let s := setPlayback s p (advanceParts pb)
    if partsDone (advanceParts pb) then releaseComplete s p else s
  | .atCue =>
    match pb.follow with
    | none => s
    | some n => if n ≤ 1 then followExpires s p else setPlayback s p { pb with follow := some (n - 1) }
  | .unbound | .ready | .paused => s

/-! ## The stage panel (R75, R76) -/

def keyState (pn : Panel) : Key → KeyState
  | .go => pn.go
  | .back => pn.back
  | .pause => pn.pause

def setKey (pn : Panel) (k : Key) (ks : KeyState) : Panel :=
  match k with
  | .go => { pn with go := ks }
  | .back => { pn with back := ks }
  | .pause => { pn with pause := ks }

/-- The panel playback (R76): the working copy holds 1 to 16. -/
def panelPlayback (s : State) : PlaybackNo := ⟨(s.working.panelPlayback - 1) % 16, by omega⟩

/-- The command a key gives (R76); a refused one has no effect beyond the fault list's own. -/
def panelCommand (s : State) (k : Key) : State :=
  let p := panelPlayback s
  match k with
  | .go => (goPlayback s p).1
  | .back => (backPlayback s p).1
  | .pause =>
    if (playbackAt s p).state = .paused then (resumePlayback s p).1 else (pausePlayback s p).1

/-- Whether the next step expiry recognises the key as PRESSED (R75). -/
def pressDue (s : State) (k : Key) : Bool :=
  let ks := keyState s.panel k
  s.phase != .inReset && ks.stable == 1 && !ks.pressed && ks.input

/-- Whether the next step expiry recognises the key as RELEASED (R75). -/
def releaseDue (s : State) (k : Key) : Bool :=
  let ks := keyState s.panel k
  s.phase != .inReset && ks.stable == 1 && ks.pressed && !ks.input

/-- One key at a step expiry of the fade engine: its stability timer, its recognition, and its action once the
power-up check has ended (R75, R76, R77). -/
def tickKey (s : State) (k : Key) : State :=
  let ks := keyState s.panel k
  let due := pressDue s k
  let ks' := { ks with stable := min 2 (ks.stable + 1), pressed := if ks.stable = 1 then ks.input else ks.pressed }
  let s := { s with panel := setKey s.panel k ks' }
  if due ∧ s.working.panelEnable ∧ s.phase = .running then panelCommand s k else s

/-- The order of the keys (R75). -/
def keyList : KeyOrder → List Key
  | .goBackPause => [.go, .back, .pause]
  | .goPauseBack => [.go, .pause, .back]
  | .backGoPause => [.back, .go, .pause]
  | .backPauseGo => [.back, .pause, .go]
  | .pauseGoBack => [.pause, .go, .back]
  | .pauseBackGo => [.pause, .back, .go]

/-- The playbacks in ascending number. -/
def allPlaybacks : List PlaybackNo := List.finRange 16

/-- After how many playbacks a key is taken (R73). -/
def keyPlace (o : StepOrder) : Key → Fin 17
  | .go => o.go
  | .back => o.back
  | .pause => o.pause

/-- The keys whose place is after the first `i` playbacks, in the order of their recognition. -/
def tickKeysAt (o : StepOrder) (i : Nat) (s : State) : State :=
  ((keyList o.keys).filter fun k => (keyPlace o k).val = i).foldl tickKey s

/-- A step expiry of the fade engine (R64, R65, R75): the playbacks in ascending number, with each key of the stage panel
taken where the world's order places it (R73, log 15). -/
def fadeTick (s : State) (o : StepOrder) : State :=
  if s.phase = .inReset then s
  else tickKeysAt o 16 (allPlaybacks.foldl (fun s p => tickPlayback (tickKeysAt o p.val s) p) s)

/-! ## Resets (R77, R78) -/

/-- A playback as a reset leaves it, unbound or bound. -/
def clearedPlayback (bound : Bool) : Playback := { Playback.reset with state := if bound then .ready else .unbound }

/-- Whether a playback is bound: its bound stack is not 0. Where the word holds a parity fault no value is read, and the
playback stays as it is: UNBOUND, or bound (log 13). -/
def isBound (s : State) (p : PlaybackNo) : Bool :=
  match boundStack s p with
  | some w => w != 0
  | none => (playbackAt s p).state != .unbound

/-- The fade engine cleared (R77, R78). -/
def clearFades (s : State) : State :=
  { s with playbacks := Vector.ofFn fun p => clearedPlayback (isBound s p), takeOrder := [] }

/-- R161 row 4: a playback that is not at rest. -/
def playbackActive (pb : Playback) : Bool :=
  match pb.state with
  | .fading | .paused | .atCue | .releasing => true
  | .unbound | .ready => false

end Sys2Proof.Machine
end

