-- ==== Sys2Proof/Machine/Composer.lean ====
section
/-! DEFINITION. The level composer (06_channel_merge_and_the_patch.md, 07_circuit_regions_and_dimmer_laws.md): the
governing region, the merge, the grand master, the patch, the dimmer law, slew, preheat and limit of one circuit. -/

namespace Sys2Proof.Machine

/-- A read of a retained word by the composer: a parity fault ends the composition with the word's address (R121). -/
def need (s : State) (a : Nat) : Except Nat Word :=
  match readWord s a with
  | some w => .ok w
  | none => .error a

/-- A read of a word of the active bank's live tables. -/
def needLive (s : State) (off : Nat) : Except Nat Word := need s (bankBase s.active + off)

/-! ## The governing region (R110) -/

/-- Whether a region of this base and count covers circuit `c` (R109). -/
def covers (base count c : Nat) : Bool := base ≤ c && c < base + count

/-- The search of R110 among the regions listed: the region's number and base. The base word is read only where the
count is not 0. -/
def searchRegions (s : State) (c : Nat) : List Nat → Except Nat (Option (Nat × Nat))
  | [] => .ok none
  | r :: rs => do
    let count ← needLive s (regionOff r + 1)
    if count = 0 then searchRegions s c rs
    else do
      let base ← needLive s (regionOff r)
      if covers base.toNat count.toNat c then .ok (some (r, base.toNat)) else searchRegions s c rs

/-- The governing region of a circuit; in safe mode there is none, and no word is read (R106, R110). -/
def governing (s : State) (c : Nat) : Except Nat (Option (Nat × Nat)) :=
  if s.safeMode then .ok none else searchRegions s c [1, 2, 3, 4, 5, 6, 7, 8]

/-! ## The merge (R96 to R101) -/

/-- The scaling of the masters and of the proportion (R86, R101, R103). -/
def scale (l m : Nat) : Nat := (l * m + 127) / 255

/-- The playbacks that hold a channel, ascending: the order in which their words are read (DESIGN CHOICE, log 22). -/
def holders (s : State) (ch : Nat) : List PlaybackNo :=
  allPlaybacks.filter fun p => (playbackAt s p).list.any (·.channel == ch)

/-- The current level of a playback's entry for a channel; 0 where it has none (R58). -/
def heldLevel (s : State) (p : PlaybackNo) (ch : Nat) : Nat :=
  match (playbackAt s p).list.find? (·.channel == ch) with
  | some e => currentLevel (playbackAt s p) e
  | none => 0

/-- The address of a playback's priority. -/
def priorityAddr (p : PlaybackNo) : Nat := playbackAddr p 1

/-- The address of a playback's master. -/
def masterAddr (p : PlaybackNo) : Nat := playbackAddr p 2

/-- A playback's contribution, with its number (R86, R96). -/
def contributionOf (s : State) (ch : Nat) (p : PlaybackNo) : Except Nat (PlaybackNo × Nat) := do
  let m ← need s (masterAddr p)
  .ok (p, scale (heldLevel s p ch) m.toNat)

/-- A playback's priority, with its number. -/
def priorityOf (s : State) (p : PlaybackNo) : Except Nat (PlaybackNo × Nat) := do
  let w ← need s (priorityAddr p)
  .ok (p, w.toNat)

/-- A playback's place in the take order. -/
def takePlace (s : State) (p : PlaybackNo) : Nat := s.takeOrder.idxOf p

/-- The winner among playbacks with their priorities: the highest priority, and the latest in the take order among
equals (R98). -/
def winner (s : State) : List (PlaybackNo × Nat) → Option (PlaybackNo × Nat)
  | [] => none
  | c :: cs =>
    match winner s cs with
    | none => some c
    | some w => if w.2 < c.2 ∨ (w.2 = c.2 ∧ takePlace s w.1 < takePlace s c.1) then some c else some w

/-- The merged level of an HTP channel (R97). -/
def mergeHtp (k : Nat) (xs : List (PlaybackNo × Nat)) : Nat := xs.foldl (fun m x => max m x.2) k

/-- The merged level of an LTP channel (R98): the console wins alone at the highest priority, a playback otherwise. -/
def mergeLtp (s : State) (k consolePriority : Nat) (xs ps : List (PlaybackNo × Nat)) : Nat :=
  match winner s ps with
  | none => k
  | some w => if w.2 < consolePriority then k else ((xs.find? (·.1 == w.1)).map (·.2)).getD 0

/-- The merged level of a channel (R96): the words are read in the order of R102's table, and within a row the holders'
words in ascending playback number (DESIGN CHOICE, log 22). -/
def mergedLevel (s : State) (ch : Nat) (ltp : Bool) : Except Nat Nat := do
  let xs ← (holders s ch).mapM (contributionOf s ch)
  if ltp then do
    let ps ← (holders s ch).mapM (priorityOf s)
    let cp ← need s (globalAddr 7)
    .ok (mergeLtp s (contribution s ch) cp.toNat xs ps)
  else .ok (mergeHtp (contribution s ch) xs)

/-- The channel level M (R101), of a channel whose table entry is `entry`. -/
def channelLevel (s : State) (ch : Nat) (entry : Word) : Except Nat Nat := do
  let m ← mergedLevel s ch (channelLtp entry)
  if channelIndependent entry then .ok m
  else do
    let gm ← need s (globalAddr 8)
    .ok (scale m gm.toNat)

/-! ## The patch (R93, R94, R103 to R108) -/

/-- A patched level: its value, or that the spec states none (log 4). -/
inductive Patched where
  | level (v : Nat)
  | unstated
  deriving DecidableEq, Repr

/-- The entry of a channel in the channel table; in safe mode every channel is HTP and not independent (R107). -/
def channelEntry (s : State) (ch : Nat) : Except Nat Word :=
  if s.safeMode then .ok 0 else needLive s (channelOff ch)

/-- The patched level of a patch entry (R94, R103). A channel above 512 or a proportion above 255 in the live patch is
outside R93 (log 4); under the latter the channel level is formed all the same, with the words R102 lists for it. -/
def patchedBy (s : State) (channel proportion : Nat) : Except Nat Patched := do
  if channel = 0 then .ok (.level 0)
  else if 512 < channel then .ok .unstated
  else do
    let entry ← channelEntry s channel
    let m ← channelLevel s channel entry
    .ok (if 255 < proportion then .unstated else .level (scale m proportion))

/-- The patched level from the live patch entry of circuit `src`: its channel is read before its proportion (DESIGN CHOICE,
log 22). -/
def patchedFrom (s : State) (src : Nat) : Except Nat Patched := do
  let channel ← needLive s (patchOff src)
  let proportion ← needLive s (patchOff src + 1)
  patchedBy s channel.toNat proportion.toNat

/-- The patched level in safe mode, from the safe patch (R106). -/
def patchedSafe (s : State) (c : Nat) : Except Nat Patched :=
  if c ≤ 512 then patchedBy s c 255 else .ok (.level 0)

/-- The patched level by echo from base `e` for a circuit `c` of a region of base `b` (R104, R105). Circuit 0 is the
source only where the echo base is 0, which R109 says the composer never meets (log 4). -/
def patchedEcho (s : State) (c b e : Nat) : Except Nat Patched :=
  let src := e + (c - b)
  if 1025 ≤ src then .ok (.level 0) else if src = 0 then .ok .unstated else patchedFrom s src

/-! ## The region stage (R115 to R119) -/

/-- A law between two points of a curve (R116). -/
def curveBetween (y0 y1 r : Nat) : Nat :=
  if y1 ≥ y0 then y0 + (y1 - y0) * r / 2048 else y0 - (y0 - y1) * r / 2048

/-- The dimmer law of curve `g` (R115, R116). -/
def dimmerLaw (s : State) (g v : Nat) : Except Nat Nat := do
  if g = 0 then .ok v
  else do
    let y0 ← need s (curveAddr g (v / 2048))
    let y1 ← need s (curveAddr g (v / 2048 + 1))
    .ok (curveBetween y0.toNat y1.toNat (v % 2048))

/-- Slew by a response against the previous output (R118). -/
def slew (response period prev u : Nat) : Nat :=
  if response = 0 then u
  else
    let d := min 65535 (response * period)
    min (min 65535 (prev + d)) (max (prev - d) u)

/-- Preheat, then limit (R119). -/
def floorAndLimit (preheat limit u : Nat) : Nat := min limit (max preheat u)

/-- The previous output of a circuit (R128). -/
def previousOutput (s : State) (c : Nat) : Nat := tget zeroLevel s.prevOut c

/-! ## One circuit -/

/-- A level given by a composition that completes, and whether it drew a free value. -/
structure Composed where
  level : Nat
  drew  : Bool
  deriving DecidableEq, Repr

/-- The value of a patched level: a free value where the spec states none (log 4). -/
def patchedValue (s : State) : Patched → Composed
  | .level v => ⟨v, false⟩
  | .unstated => ⟨(Config.freeWord s.freeDraws).toNat, true⟩

/-- What the search of R110, the park of R112 and the patch give a circuit: the patched level of a circuit of no region, a
park level, or the patched level and curve of a circuit of region `r`. -/
inductive PatchStage where
  | ungoverned (v : Patched)
  | parked (level : Nat)
  | governed (r curve : Nat) (v : Patched)
  deriving DecidableEq, Repr

/-- The stages of a composition up to the patched level, their words read in the order of R121. -/
def patchStage (s : State) (c : Nat) : Except Nat PatchStage := do
  match ← governing s c with
  | none => do
    let v ← if s.safeMode then patchedSafe s c else patchedFrom s c
    .ok (.ungoverned v)
  | some (r, base) => do
    let flags ← needLive s (regionOff r + 2)
    if regionPark flags then do
      let park ← needLive s (regionOff r + 3)
      .ok (.parked park.toNat)
    else do
      let v ← if regionEcho flags then do
                let e ← needLive s (regionOff r + 4)
                patchedEcho s c base e.toNat
              else patchedFrom s c
      .ok (.governed r (regionCurve flags) v)

/-- The region stage of a governed circuit that is not parked (R115 to R119), its words read in the order of R121. -/
def regionStage (s : State) (c period r curve v : Nat) : Except Nat Nat := do
  let u ← dimmerLaw s curve v
  let response ← needLive s (regionOff r + 7)
  let preheat ← needLive s (regionOff r + 5)
  let limit ← needLive s (regionOff r + 6)
  .ok (floorAndLimit preheat.toNat limit.toNat (slew response.toNat period (previousOutput s c) u))

/-- The composition of circuit `c` of a frame with the latched period `period`; a parity fault ends it with the faulted
address (R121, R129). -/
def compose (s : State) (c period : Nat) : Except Nat Composed := do
  match ← patchStage s c with
  | .ungoverned v => .ok (patchedValue s v)
  | .parked level => .ok ⟨level, false⟩
  | .governed r curve v => do
    let level ← regionStage s c period r curve (patchedValue s v).level
    .ok ⟨level, (patchedValue s v).drew⟩

/-- Whether the composition of a circuit draws a free value; one that a later fault then holds has drawn it too (log 4). -/
def drawsFree (s : State) (c : Nat) : Bool :=
  match patchStage s c with
  | .ok (.ungoverned v) | .ok (.governed _ _ v) => (patchedValue s v).drew
  | .ok (.parked _) | .error _ => false

/-- The composition of a circuit as an event (R127 to R129): the level returned, and the state it leaves. A held circuit
keeps its previous output and offers the faulted address. -/
def composeCircuit (s : State) (c period : Nat) : State × Nat :=
  let draws := if drawsFree s c then s.freeDraws + 1 else s.freeDraws
  match compose s c period with
  | .ok u => ({ s with prevOut := tset zeroLevel s.prevOut c u.level, freeDraws := draws }, u.level)
  | .error a => ({ offerFault s a with freeDraws := draws }, previousOutput s c)

end Sys2Proof.Machine
end

