-- ==== Sys2Proof/Machine/Lines.lean ====
section
/-! DEFINITION. The output lines (08_output_lines.md): the period timer, frame start, the frame's circuits, its end,
and the enable setting. -/

namespace Sys2Proof.Machine

/-- The period timer runs in WAITING and SENDING (R124). -/
def timerRuns (l : Line) : Bool := l.tx == .waiting || l.tx == .sending

/-- A frame is in transmission. -/
def inFrame (l : Line) : Bool := l.tx == .sending || l.tx == .startPending || l.tx == .stopping

/-- A frame start (R126): the settings latched, the timer restarted at 0, and the frame's first three bytes. -/
def frameStart (l : Line) (w : LineSettings) (isLate : Bool) : Line :=
  { l with
    tx := .sending, timer := 0, late := if isLate then bump l.late else l.late,
    count := w.count, mode := w.mode, period := w.period, next := 0, sent := dimmerHeader w.mode w.count }

/-- Whether the next step expiry of the line makes its period timer expire (R125). -/
def periodDue (s : State) (k : LineNo) : Bool :=
  timerRuns (lineAt s k) && (lineSettings s k).period ≤ (lineAt s k).timer + 1

/-- A step expiry of a line (R124, R125). -/
def lineTick (s : State) (k : LineNo) : State :=
  let l := lineAt s k
  if timerRuns l then
    if periodDue s k then
      match l.tx with
      | .waiting => setLine s k (frameStart l (lineSettings s k) false)
      | _ => setLine s k { l with tx := .startPending, timer := l.timer + 1 }
    else setLine s k { l with timer := l.timer + 1 }
  else s

/-- The circuit a line composes next (R127): line k carries circuits 256(k - 1) + 1 to 256k. -/
def nextCircuit (k : LineNo) (l : Line) : Nat := 256 * k.val + l.next + 1

/-- Whether a line's frame has a circuit to compose. -/
def circuitDue (l : Line) : Bool := inFrame l && l.next < l.count

/-- The next circuit of a line's frame: composed, encoded and sent (R127, R130). -/
def composeNext (s : State) (k : LineNo) : State :=
  let l := lineAt s k
  if circuitDue l then
    let r := composeCircuit s (nextCircuit k l) l.period
    setLine r.1 k { l with next := l.next + 1, sent := l.sent ++ encodeLevel l.mode r.2 }
  else s

/-- Whether a line's frame has had all its circuits composed, so that its CRC ends it (R131). -/
def frameEndDue (l : Line) : Bool := inFrame l && l.count ≤ l.next

/-- The whole frame: what was sent and the CRC-16 over its type, count and level bytes (R171). -/
def wholeFrame (l : Line) : List Byte := l.sent ++ wordBytes (crc16 l.sent.tail)

/-- The end of a frame (R124, R131, R132, R133). -/
def frameEnd (s : State) (k : LineNo) : State :=
  let l := lineAt s k
  if frameEndDue l then
    let done := { l with last := wholeFrame l, sent := [] }
    match l.tx with
    | .startPending => setLine s k (frameStart done (lineSettings s k) true)
    | .stopping => setLine s k { done with tx := .silent }
    | _ => setLine s k { done with tx := .waiting }
  else s

/-- A taken write of a line's enable (R124, R133). -/
def enableLine (l : Line) (on : Bool) : Line :=
  if on then
    match l.tx with
    | .silent => { l with tx := .waiting, timer := 0 }
    | .stopping => { l with tx := .sending, timer := 0 }
    | .waiting | .sending | .startPending => l
  else
    match l.tx with
    | .waiting => { l with tx := .silent }
    | .sending | .startPending => { l with tx := .stopping }
    | .silent | .stopping => l

/-- A line at the end of the power-up check (R134, R169). -/
def startLine (s : State) (k : LineNo) : State :=
  if (lineSettings s k).enable ∧ (lineAt s k).tx = .silent then
    setLine s k { lineAt s k with tx := .waiting, timer := 0 }
  else s

/-- The lines in ascending number. -/
def allLines : List LineNo := List.finRange 4

end Sys2Proof.Machine
end

