-- ==== Sys2Proof/Machine/TableSpace.lean ====
section
/-! DEFINITION. The table space (09_requests_replies_and_the_table_space.md, 10_show_banks_patch_hold_and_changeover.md):
what a word reads as, the check of each word a WRITE offers, and what a taken word does. -/

namespace Sys2Proof.Machine

/-! ## Reads (R139, R140, R149) -/

/-- What a read of an address answers: a value, that it is unmapped, or a parity fault with the address of the retained
word it was met in. -/
inductive ReadResult where
  | value (w : Word)
  | unmapped
  | fault (addr : Nat)
  deriving DecidableEq, Repr

/-- A read of a retained word. -/
def readRetained (s : State) (a : Nat) : ReadResult :=
  match readWord s a with
  | some w => .value w
  | none => .fault a

/-- The nine counters of a link in the order of the status area. -/
def counterList (c : LinkCounters) : List Nat :=
  [c.goodLevel, c.goodRequest, c.crc, c.length, c.gap, c.oversize, c.unknownType, c.filtered, c.dropped]

/-- The upper word of a 24-bit value held in two words. -/
def upperWord (n : Nat) : Word := wordOf (n / 65536)

/-- The 74 words of the status area (12_formats.md). -/
def statusWords (s : State) : List Word :=
  [wordOf (linkStateCode s.links.a.state), wordOf (linkStateCode s.links.b.state)] ++
  (counterList s.links.a.counters).map wordOf ++ (counterList s.links.b.counters).map wordOf ++
  allLines.map (fun k => wordOf (lineAt s k).late) ++
  [wordOf (linkCode s.arb.owner), wordOf (sourceStateCode s.arb.source), flagWord s.arb.lock, flagWord s.arb.holdoff,
   wordOf (slotCode s.slot), upperWord (slotProgress s.slot), wordOf (slotProgress s.slot),
   wordOf (opResultCode s.lastVerify), upperWord s.lastVerifyAddr, wordOf s.lastVerifyAddr,
   flagWord s.verified.b0, flagWord s.verified.b1,
   if s.safeMode then 0xFFFF else wordOf (bankCode s.active), flagWord s.safeMode, flagWord s.patchHold,
   wordOf s.faultList.length, flagWord s.faultOverflow] ++
  (List.range 16).flatMap (fun i => [upperWord (s.faultList.getD i 0), wordOf (s.faultList.getD i 0)]) ++
  [flagWord s.dropMark]

/-- The state words of a playback's block, offsets 5 to 15 (R55, 12_formats.md). -/
def playbackWord (pb : Playback) (i : Nat) : Word :=
  match i with
  | 5 => wordOf (playbackStateCode pb.state)
  | 6 => wordOf ((pb.cue.map (·.number)).getD 0)
  | 7 => wordOf pb.list.length
  | 8 => wordOf (partPhaseCode pb.up.phase)
  | 9 => wordOf (partPhaseCode pb.down.phase)
  | 10 => wordOf (pb.follow.getD 0)
  | _ => 0

/-- The fixed tables that the live window shows in safe mode, by bank offset (R106, R107). -/
def safeWord (off : Nat) : Word :=
  if off < 515 then 0
  else if off < 2563 then
    let c := (off - 515) / 2 + 1
    if 512 < c then 0 else if (off - 515) % 2 = 0 then wordOf c else 255
  else if (off - 2563) % 8 = 0 then 1 else 0

/-- Bank offsets 3 to 2,626: the channel table, the patch and the regions. -/
def isTableOff (off : Nat) : Bool := 3 ≤ off && off < 2627

/-- Whether bank `b` is the active bank; in safe mode neither is (R148). -/
def isActive (s : State) (b : Bank) : Bool := !s.safeMode && b == s.active

/-- The shadow word at a bank offset (R149). -/
def shadowWord (s : State) (off : Nat) : Word := tget zeroWord s.shadow off

/-- What an address of the table space reads as. -/
def readTable (s : State) (a : Nat) : ReadResult :=
  match placeOf a with
  | .unmapped => .unmapped
  | .global _ | .selection => readRetained s a
  | .status i => .value ((statusWords s).getD i 0)
  | .playback p i => if i < 5 then readRetained s a else .value (playbackWord (playbackAt s p) i)
  | .curve g i => if g = 0 then .value (wordOf (linearPoint i)) else readRetained s a
  | .liveWindow off => if s.safeMode then .value (safeWord off) else readRetained s (bankBase s.active + off)
  | .bank b off => if isActive s b ∧ isTableOff off then .value (shadowWord s off) else readRetained s a

/-! ## Bank flags -/

/-- A bank's verified flag cleared (R154). -/
def clearVerified (s : State) (b : Bank) : State := { s with verified := s.verified.put b false }

/-! ## Settings (R19, R53, R76, R99, R115, R123, R139) -/

/-- A value clamped into a range. -/
def clampTo (lo hi : Nat) (v : Word) : Word := wordOf (max lo (min hi v.toNat))

/-- A value refused outside a range. -/
def inRange (lo hi : Nat) (v : Word) : Option Word := if lo ≤ v.toNat ∧ v.toNat ≤ hi then some v else none

/-- The check of a global setting: the value taken, or `none` where it is refused with RANGE. -/
def globalCheck (i : Nat) (v : Word) : Option Word :=
  match i with
  | 0 => inRange 0 3 v
  | 1 => some (clampTo 0 1 v)
  | 2 => some (clampTo 0 1 v)
  | 3 => some (clampTo 0 1000 v)
  | 4 => some (clampTo 10 1000 v)
  | 5 => some v
  | 6 => some v
  | 7 => some (clampTo 0 3 v)
  | 8 => some (clampTo 0 255 v)
  | 9 => inRange 1 15 v
  | 10 => inRange 1 16 v
  | 11 => some (clampTo 0 1 v)
  | _ =>
    match i % 4 with
    | 0 => some (clampTo 0 1 v)
    | 1 => some (clampTo 1 256 v)
    | 2 => inRange 0 1 v
    | _ => some (clampTo 1 10 v)

/-- The working copy of a line setting, by its offset in the line's four (R123). -/
def loadLineSetting (l : LineSettings) (j : Nat) (v : Word) : LineSettings :=
  match j with
  | 0 => { l with enable := v != 0 }
  | 1 => { l with count := v.toNat }
  | 2 => { l with mode := if v = 0 then .coarse else .fine }
  | _ => { l with period := v.toNat }

/-- The working copies with the retained word at offset `i` of the global settings loaded (R163); the console priority
and the grand master have none. -/
def loadSetting (w : Working) (i : Nat) (v : Word) : Working :=
  match i with
  | 0 => { w with sourceMode := sourceModeOf v.toNat }
  | 1 => { w with preferred := linkOfCode v.toNat }
  | 2 => { w with reclaim := v != 0 }
  | 3 => { w with handoverTime := v.toNat }
  | 4 => { w with lossTime := v.toNat }
  | 5 => { w with lossFadeDelay := v.toNat }
  | 6 => { w with lossFadeTime := v.toNat }
  | 7 => w
  | 8 => w
  | 9 => { w with unit := v.toNat }
  | 10 => { w with panelPlayback := v.toNat }
  | 11 => { w with panelEnable := v != 0 }
  | _ =>
    if h : (i - 12) / 4 < 4 then
      { w with lines := w.lines.set ((i - 12) / 4) (loadLineSetting w.lines[(i - 12) / 4] (i % 4) v) }
    else w

/-- A taken write of a global setting: the word, its working copy, and a line whose enable it is (R133). -/
def takeGlobal (s : State) (i : Nat) (v : Word) : State :=
  let s := { rewrite s (globalAddr i) v with working := loadSetting s.working i v }
  if h : 12 ≤ i ∧ i < 28 ∧ i % 4 = 0 then
    let k : LineNo := ⟨(i - 12) / 4, by omega⟩
    setLine s k (enableLine (lineAt s k) (v != 0))
  else s

/-- A counter of a link cleared, by its place in the status area's order (R17). -/
def clearCounter (c : LinkCounters) (i : Nat) : LinkCounters :=
  match i with
  | 0 => { c with goodLevel := 0 }
  | 1 => { c with goodRequest := 0 }
  | 2 => { c with crc := 0 }
  | 3 => { c with length := 0 }
  | 4 => { c with gap := 0 }
  | 5 => { c with oversize := 0 }
  | 6 => { c with unknownType := 0 }
  | 7 => { c with filtered := 0 }
  | _ => { c with dropped := 0 }

/-- What the offer of one word gives (R138): taken, or refused with a code; a refusal may have met a fault. -/
inductive WordResult where
  | taken (s : State)
  | refused (r : Result) (s : State)

/-- A write into the status area (R17, R132, R140). -/
def writeStatus (s : State) (i : Nat) : WordResult :=
  if 2 ≤ i ∧ i ≤ 10 then
    .taken (setLink s .a { linkOf s .a with counters := clearCounter (linkOf s .a).counters (i - 2) })
  else if 11 ≤ i ∧ i ≤ 19 then
    .taken (setLink s .b { linkOf s .b with counters := clearCounter (linkOf s .b).counters (i - 11) })
  else if h : 20 ≤ i ∧ i ≤ 23 then
    let k : LineNo := ⟨i - 20, by omega⟩
    .taken (setLine s k { lineAt s k with late := 0 })
  else .refused .readOnly s

/-- A write of a playback's bound stack (R54). -/
def writeBoundStack (s : State) (p : PlaybackNo) (v : Word) : WordResult :=
  if 16 < v.toNat then .refused .range s
  else if playbackActive (playbackAt s p) then .refused .busy s
  else if s.safeMode ∧ v ≠ 0 then .refused .state s
  else
    .taken (setPlayback (rewrite s (playbackAddr p 0) v) p
      { playbackAt s p with state := if v = 0 then .unbound else .ready })

/-- A write into a playback's block (R53, R54, R55, R140). -/
def writePlayback (s : State) (p : PlaybackNo) (i : Nat) (v : Word) : WordResult :=
  match i with
  | 0 => writeBoundStack s p v
  | 1 => .taken (rewrite s (playbackAddr p 1) (clampTo 0 3 v))
  | 2 => .taken (rewrite s (playbackAddr p 2) (clampTo 0 255 v))
  | 3 => .taken (rewrite s (playbackAddr p 3) v)
  | 4 => .taken (rewrite s (playbackAddr p 4) v)
  | _ => .refused .readOnly s

/-! ## Words of the active bank (R150, R151) -/

/-- The count that a region of base `base` takes (R151): clamped to 1,025 less the base. Under a base above 1,025, which a
faulted word's stored value can bring into the shadow (R149), the spec gives no count: a free value (log 27). -/
def regionCountTaken (base v : Word) : Word :=
  if base.toNat ≤ 1025 then wordOf (min v.toNat (1025 - base.toNat)) else Config.regionCount base v

/-- The check of R151 against the shadow: the bank offsets and values that a taken word changes, or `none` where it is
refused with RANGE. A taken base that leaves the region's shadow count too large reduces it in the same change. -/
def tableCheck (shadow : Nat → Word) (off : Nat) (v : Word) : Option (List (Nat × Word)) :=
  if off < 515 then if channelEntryOk v then some [(off, v)] else none
  else if off < 2563 then
    if (off - 515) % 2 = 0 then if v.toNat ≤ 512 then some [(off, v)] else none
    else if v.toNat ≤ 255 then some [(off, v)] else none
  else
    let first := 2563 + 8 * ((off - 2563) / 8)
    match (off - 2563) % 8 with
    | 0 =>
      if 1 ≤ v.toNat ∧ v.toNat ≤ 1024 then
        if 1025 - v.toNat < (shadow (first + 1)).toNat then
          some [(off, v), (first + 1, wordOf (1025 - v.toNat))]
        else some [(off, v)]
      else none
    | 1 => some [(off, regionCountTaken (shadow first) v)]
    | 2 => if regionFlagsOk v (shadow (first + 4)) then some [(off, v)] else none
    | 4 =>
      if (1 ≤ v.toNat ∧ v.toNat ≤ 1024) ∨ (v = 0 ∧ !regionEcho (shadow (first + 2))) then some [(off, v)] else none
    | _ => some [(off, v)]

/-- R113, R150 row 2: whether the patch entry of circuit `c` is protected by its governing live region. -/
def protectedCircuit (s : State) (c : Nat) : Except Nat Bool := do
  match ← governing s c with
  | none => .ok false
  | some (r, _) =>
    let flags ← needLive s (regionOff r + 2)
    .ok (regionProtect flags)

/-- Words taken into the shadow. -/
def writeShadow (s : State) (ws : List (Nat × Word)) : State :=
  { s with shadow := ws.foldl (fun t w => tset zeroWord t w.1 w.2) s.shadow }

/-- Words taken into the active bank's tables: the shadow, and with hold off the live tables too (R150, R154). -/
def takeActive (s : State) (ws : List (Nat × Word)) : State :=
  let s := writeShadow s ws
  if s.patchHold then s
  else clearVerified (rewriteAll s (ws.map fun w => (bankBase s.active + w.1, w.2))) s.active

/-- The checks of R151, and the word taken. -/
def checkActive (s : State) (off : Nat) (v : Word) : WordResult :=
  match tableCheck (shadowWord s) off v with
  | none => .refused .range s
  | some ws => .taken (takeActive s ws)

/-- A write into the active bank (R150). -/
def writeActive (s : State) (off : Nat) (v : Word) : WordResult :=
  if !isTableOff off then .refused .activeBank s
  else if 515 ≤ off ∧ off < 2563 then
    match protectedCircuit s ((off - 515) / 2 + 1) with
    | .error a => .refused .fault (offerFault s a)
    | .ok true => .refused .protect s
    | .ok false => checkActive s off v
  else checkActive s off v

/-! ## Words of the staged bank (R152) -/

/-- R152: the address lies in the destination range of a running COPY. -/
def inCopyDestination (sl : Slot) (a : Nat) : Bool :=
  match sl with
  | .copy _ dst count _ => dst ≤ a && a < dst + count
  | .empty | .verify _ _ _ _ => false

/-- A running VERIFY of bank `b` marked stale (R152, R160). -/
def markStale (sl : Slot) (b : Bank) : Slot :=
  match sl with
  | .verify b' pass stale reads => .verify b' pass (stale || b == b') reads
  | .empty => .empty
  | .copy src dst count done => .copy src dst count done

/-- A write into a staged bank (R152). -/
def writeStaged (s : State) (b : Bank) (off : Nat) (v : Word) : WordResult :=
  if inCopyDestination s.slot (bankBase b + off) then .refused .busy s
  else .taken { clearVerified (rewrite s (bankBase b + off) v) b with slot := markStale s.slot b }

/-! ## One word, and a WRITE (R138) -/

/-- The decision of one word that a WRITE offers (R138, R140). -/
def writeWord (s : State) (a : Nat) (v : Word) : WordResult :=
  match placeOf a with
  | .unmapped => .refused .unmapped s
  | .global i =>
    match globalCheck i v with
    | none => .refused .range s
    | some w => .taken (takeGlobal s i w)
  | .status i => writeStatus s i
  | .playback p i => writePlayback s p i v
  | .selection => .refused .readOnly s
  | .liveWindow _ => .refused .readOnly s
  | .curve g _ => if g = 0 then .refused .readOnly s else .taken (rewrite s a v)
  | .bank b off => if isActive s b then writeActive s off v else writeStaged s b off v

/-- The words of a WRITE from address `a` on, up to the first refused one: the state, the number taken, and the code.
An advance from 0xFFFFFF gives 0 (R137). -/
def writeWords (s : State) (a : Nat) : List Word → State × Nat × Result
  | [] => (s, 0, .ok)
  | w :: ws =>
    match writeWord s a w with
    | .refused r s => (s, 0, r)
    | .taken s =>
      let rest := writeWords s ((a + 1) % 0x1000000) ws
      (rest.1, rest.2.1 + 1, rest.2.2)

/-- A WRITE's words written from address `a` by link `x`, as one change: the words, the arbiter's act on them (R19, R35,
R36), and the link's index at the word after the last taken (R138). -/
def writeFrom (s : State) (x : Link) (a : Nat) (ws : List Word) : State × Nat × Result :=
  let r := writeWords s a ws
  let newMode := r.1.working.sourceMode != s.working.sourceMode
  let newPreferred := a ≤ 1 && 1 < a + r.2.1
  let t := if newMode || newPreferred then arbiterWritten r.1 newMode newPreferred (snapshotNow s) else r.1
  ({ t with tableIndex := t.tableIndex.put x ((a + r.2.1) % 0x1000000) }, r.2.1, r.2.2)

/-- The words of a READ of `n` from address `a` on: those returned, the code, and the address of a fault met (R139). -/
def readWords (s : State) (a : Nat) : Nat → List Word × Result × Option Nat
  | 0 => ([], .ok, none)
  | n + 1 =>
    match readTable s a with
    | .unmapped => ([], .unmapped, none)
    | .fault f => ([], .fault, some f)
    | .value w =>
      let rest := readWords s ((a + 1) % 0x1000000) n
      (w :: rest.1, rest.2)

end Sys2Proof.Machine
end

