-- ==== Sys2Proof/Machine/BankCheck.lean ====
section
/-! DEFINITION. The structure checks of a bank (R49 to R52, R159): the program of reads and tests each item of the
check is, and its two uses, word by word (VERIFY) and whole (the power-up check). -/

namespace Sys2Proof.Machine

/-- A check as a program of word reads: it passes, fails with STRUCTURE, or reads the word at a bank offset and goes on
with its value. -/
inductive Check where
  | pass
  | fail
  | read (off : Nat) (next : Word → Check)

/-- The check that remains after the words given have been read. -/
def feed : Check → List Word → Check
  | .read _ next, w :: ws => feed (next w) ws
  | c, _ => c

/-! ## Reads of several words -/

/-- Reads the words at the offsets listed, in order. -/
def readAll : List Nat → (List Word → Check) → Check
  | [], k => k []
  | off :: offs, k => .read off fun w => readAll offs fun ws => k (w :: ws)

/-- Reads the stack and cue number words of the records at the positions listed, in order (DESIGN CHOICE, log 21). -/
def readNumbers : List Nat → (List (Nat × Nat × Nat) → Check) → Check
  | [], k => k []
  | q :: qs, k =>
    .read (recordOff q) fun st => .read (recordOff q + 1) fun n =>
      readNumbers qs fun rest => k ((q, st.toNat, n.toNat) :: rest)

/-- Looks through the positions listed, in order, for a record of stack `st` and cue number `n`; it reads each record's
stack and cue number words until it finds one. The spec gives neither the order of the reads nor their end (DESIGN CHOICE,
log 21). -/
def findRecord (st n : Nat) : List Nat → (Option Nat → Check) → Check
  | [], k => k none
  | q :: qs, k =>
    .read (recordOff q) fun st' => .read (recordOff q + 1) fun n' =>
      if st'.toNat = st ∧ n'.toNat = n then k (some q) else findRecord st n qs k

/-! ## A cue record (R50 to R52) -/

/-- The words of the record being checked that its checks use. -/
structure RecordHead where
  position : Nat
  stack    : Nat
  cue      : Nat
  lookOff  : Nat
  lookLen  : Nat
  flags    : Word
  follow   : Nat
  link     : Nat
  deriving DecidableEq, Repr

/-- The record's head from its twelve words. -/
def headOf (p : Nat) (ws : List Word) : RecordHead :=
  let w (i : Nat) : Word := ws.getD i 0
  { position := p, stack := (w 0).toNat, cue := (w 1).toNat, lookOff := (w 2).toNat, lookLen := (w 3).toNat,
    flags := w 8, follow := (w 9).toNat, link := (w 10).toNat }

/-- Conditions 1 to 5 of R50. -/
def headOk (h : RecordHead) : Bool :=
  1 ≤ h.stack && h.stack ≤ 16 && h.cue != 0 && cueFlagsOk h.flags && h.lookLen ≤ 512 && h.lookOff ≤ 32767 &&
    h.lookOff + h.lookLen ≤ 32768

/-- Conditions 6 and 7 of R50 for `n` look entries from pool entry `j` on; `prev` is the channel of the entry before, 0
before the first. Both words of an entry are read before its channel is tested (DESIGN CHOICE, log 21). -/
def checkLook (j prev : Nat) : Nat → Check → Check
  | 0, k => k
  | n + 1, k =>
    .read (lookOff j) fun ch => .read (lookOff j + 1) fun lv =>
      if 1 ≤ ch.toNat ∧ ch.toNat ≤ 512 ∧ lv.toNat ≤ 255 ∧ prev < ch.toNat then checkLook (j + 1) ch.toNat n k
      else .fail

/-- R51, uniqueness: no lower-positioned record has the same stack and cue number. -/
def checkUnique (h : RecordHead) (k : Check) : Check :=
  findRecord h.stack h.cue (List.range h.position) fun found => if found.isSome then .fail else k

/-- R51, link target: some loaded record is the one the link names; the record itself counts unread. -/
def checkLinkTarget (count : Nat) (h : RecordHead) (k : Check) : Check :=
  if cueLink h.flags ∧ h.link ≠ h.cue then
    findRecord h.stack h.link ((List.range count).filter (· ≠ h.position)) fun found =>
      if found.isSome then k else .fail
  else k

/-- A record's next cue over the loaded records as stored (R46, R52): the linked record, or the next higher number of
the stack, as its position and number. For a link the records are read up to the match, for a next higher number all of
them; of two loaded records with one stack and number the lower position is taken (DESIGN CHOICE, log 21). -/
def nextStored (count st cue : Nat) (flags : Word) (link : Nat) (k : Option (Nat × Nat) → Check) : Check :=
  if cueLink flags then
    findRecord st link (List.range count) fun found => k (found.map fun q => (q, link))
  else
    readNumbers (List.range count) fun all =>
      let higher := all.filter fun r => r.2.1 = st ∧ cue < r.2.2
      k (higher.foldl (fun best r =>
        match best with
        | none => some (r.1, r.2.2)
        | some b => if r.2.2 < b.2 then some (r.1, r.2.2) else some b) none)

/-- Whether a record has FOLLOW present with a follow time of 0. -/
def followsAtOnce (flags : Word) (follow : Nat) : Bool := cueFollow flags && follow == 0

/-- R52: the chain of next cues from the record at `cue`, through records that follow at once, for at most `fuel` steps.
It fails where the chain comes back to the record `h`, whose own words are not read again there (DESIGN CHOICE, log 21). -/
def checkChain (count : Nat) (h : RecordHead) : Nat → Nat → Word → Nat → Check → Check
  | 0, _, _, _, k => k
  | fuel + 1, cue, flags, link, k =>
    nextStored count h.stack cue flags link fun next =>
      match next with
      | none => k
      | some (q, n) =>
        if q = h.position then .fail
        else
          .read (recordOff q + 8) fun flags' => .read (recordOff q + 9) fun follow' =>
            if followsAtOnce flags' follow'.toNat then
              if cueLink flags' then
                .read (recordOff q + 10) fun link' => checkChain count h fuel n flags' link'.toNat k
              else checkChain count h fuel n flags' 0 k
            else k

/-- R52. -/
def checkCycle (count : Nat) (h : RecordHead) (k : Check) : Check :=
  if followsAtOnce h.flags h.follow then checkChain count h count h.cue h.flags h.link k else k

/-- All checks of the record at position `p` (R49 to R52): its twelve words, its head, its look, and the checks that
consult other records. All twelve words are read before conditions 1 to 5 of R50 are tested (DESIGN CHOICE, log 21). -/
def checkRecord (count p : Nat) : Check :=
  readAll ((List.range 12).map (recordOff p + ·)) fun ws =>
    let h := headOf p ws
    if headOk h then
      checkLook h.lookOff 0 h.lookLen (checkUnique h (checkLinkTarget count h (checkCycle count h .pass)))
    else .fail

/-! ## The items of the structure pass (R159) -/

/-- R159 item 4, over a region's eight words. -/
def regionOk (ws : List Word) : Bool :=
  let w (i : Nat) : Nat := (ws.getD i 0).toNat
  1 ≤ w 0 && w 0 ≤ 1024 && w 1 ≤ 1025 - w 0 && w 4 ≤ 1024 && regionFlagsOk (ws.getD 2 0) (ws.getD 4 0)

/-- A test as the end of a check. -/
def test (b : Bool) : Check := if b then .pass else .fail

/-- The check of one item, with the bank's cue count. -/
def checkItem (count : Nat) : CheckItem → Check
  | .cueCount => .read cueCountOff fun w => test (w.toNat ≤ 960)
  | .channel ch => .read (channelOff ch) fun w => test (channelEntryOk w)
  | .patch i => .read (515 + i) fun w => test (if i % 2 = 0 then w.toNat ≤ 512 else w.toNat ≤ 255)
  | .region r => readAll ((List.range 8).map (regionOff r + ·)) fun ws => test (regionOk ws)
  | .record p => checkRecord count p

/-- The bank offset a failure of an item is reported at (R49, R159). -/
def itemOff : CheckItem → Nat
  | .cueCount => cueCountOff
  | .channel ch => channelOff ch
  | .patch i => 515 + i
  | .region r => regionOff r
  | .record p => recordOff p

/-- The item after an item, in address order (R159). -/
def nextItem (count : Nat) : CheckItem → Option CheckItem
  | .cueCount => some (.channel 1)
  | .channel ch => if ch < 512 then some (.channel (ch + 1)) else some (.patch 0)
  | .patch i => if i < 2047 then some (.patch (i + 1)) else some (.region 1)
  | .region r => if r < 8 then some (.region (r + 1)) else if 0 < count then some (.record 0) else none
  | .record p => if p + 1 < count then some (.record (p + 1)) else none

/-! ## The pass run whole (R168) -/

/-- The end of a check run whole. -/
inductive Verdict where
  | pass
  | fail
  | fault (off : Nat)
  deriving DecidableEq, Repr

/-- A check run on a bank's words; a parity fault met ends it. -/
def runCheck (rd : Nat → Option Word) : Check → Verdict
  | .pass => .pass
  | .fail => .fail
  | .read off next =>
    match rd off with
    | none => .fault off
    | some w => runCheck rd (next w)

/-- Items checked in turn up to the first that does not pass. -/
def runItems (rd : Nat → Option Word) (count : Nat) : List CheckItem → Verdict
  | [] => .pass
  | i :: is =>
    match runCheck rd (checkItem count i) with
    | .pass => runItems rd count is
    | v => v

/-- The items of the pass after the cue count, in address order (R159). -/
def tableItems (count : Nat) : List CheckItem :=
  (List.range' 1 512).map .channel ++ (List.range 2048).map .patch ++ (List.range' 1 8).map .region ++
    (List.range count).map .record

/-- The structure pass of a bank run whole (R159, R168). -/
def examine (s : State) (b : Bank) : Verdict :=
  let rd := readBank s b
  match rd cueCountOff with
  | none => .fault cueCountOff
  | some n => if n.toNat ≤ 960 then runItems rd n.toNat (tableItems n.toNat) else .fail

end Sys2Proof.Machine
end

