-- ==== Sys2Proof/Machine/Banks.lean ====
section
/-! DEFINITION. Show banks, patch hold and changeover (10_show_banks_patch_hold_and_changeover.md): the shadow, HOLD,
APPLY, DISCARD, the table operation slot with COPY and VERIFY, and SWITCH. -/

namespace Sys2Proof.Machine

/-! ## The shadow and patch hold (R149, R153) -/

/-- The stored value of a live table word, whatever its parity. -/
def liveStored (s : State) (off : Nat) : StoredWord := stored s (bankBase s.active + off)

/-- The shadow loaded from the live tables' stored values, without parity checks (R149). -/
def loadShadow (s : State) : State := { s with shadow := tofFn zeroWord 3 2624 fun off => (liveStored s off).val }

/-- The bank offsets of the 2,624 table words. -/
def tableOffs : List Nat := List.range' 3 2624

/-- HOLD (R153). -/
def holdPatch (s : State) : State × Result :=
  if s.safeMode then (s, .state) else ({ s with patchHold := true }, .ok)

/-- How many live words differ from the shadow or hold a parity fault (R153). -/
def differing (s : State) : Nat :=
  (tableOffs.filter fun off => (liveStored s off).bad || (liveStored s off).val != shadowWord s off).length

/-- APPLY (R153): every live table word rewritten from the shadow, and the number that differed. -/
def applyPatch (s : State) : State × Result × Nat :=
  if s.safeMode then (s, .state, 0)
  else
    let n := differing s
    let t := rewriteAll s (tableOffs.map fun off => (bankBase s.active + off, shadowWord s off))
    let t := if n = 0 then t else clearVerified t s.active
    ({ t with patchHold := false }, .ok, n)

/-- DISCARD (R153). -/
def discardPatch (s : State) : State × Result :=
  if s.safeMode then (s, .state) else ({ loadShadow s with patchHold := false }, .ok)

/-! ## COPY (R156, R157) -/

/-- The areas of the table space as ranges of addresses, rising. -/
def areas : List (Nat × Nat) :=
  [(0x000000, 0x00001B), (0x001000, 0x001049), (0x002000, 0x0020FF), (0x002100, 0x002100), (0x003000, 0x003107),
   (0x004000, 0x004A3F), (0x100000, 0x113742), (0x140000, 0x153742)]

/-- How far the mapped addresses that begin with address `a` run: the first address at or above `a` that is in no area.
The areas are taken in rising order, so that one that begins where another ends carries the run on. -/
def mappedUpTo (a : Nat) : Nat := areas.foldl (fun e r => if r.1 ≤ e ∧ e ≤ r.2 then r.2 + 1 else e) a

/-- Whether every address of a range is mapped. -/
def allMapped (a n : Nat) : Bool := a + n ≤ mappedUpTo a

/-- Whether two ranges of `n` words share an address. -/
def overlap (a b n : Nat) : Bool := a < b + n && b < a + n

/-- Whether a range of `n` words includes a word of bank `b`. -/
def touchesBank (a n : Nat) (b : Bank) : Bool := a < bankBase b + bankWords && bankBase b < a + n

/-- Whether a range lies within bank 0 or within bank 1. -/
def withinBanks (a n : Nat) : Bool :=
  (bankBase .b0 ≤ a && a + n ≤ bankBase .b0 + bankWords) || (bankBase .b1 ≤ a && a + n ≤ bankBase .b1 + bankWords)

/-- COPY (R156). -/
def startCopy (s : State) (src dst n : Nat) : State × Result :=
  if 0x1000000 < src + n ∨ 0x1000000 < dst + n ∨ overlap src dst n then (s, .badRequest)
  else if !allMapped src n ∨ !allMapped dst n then (s, .unmapped)
  else if !s.safeMode ∧ touchesBank dst n s.active then (s, .activeBank)
  else if !withinBanks dst n then (s, .readOnly)
  else if s.slot ≠ .empty then (s, .busy)
  else
    let s := if touchesBank dst n .b0 then clearVerified s .b0 else s
    let s := if touchesBank dst n .b1 then clearVerified s .b1 else s
    ({ s with slot := .copy src dst n 0 }, .ok)

/-- The end of a table operation: the slot empties and OP_DONE is offered (R155). -/
def endOperation (s : State) (op : OpKind) (res : OpResult) (addr : Nat) : State :=
  offerReport { s with slot := .empty } (.opDone op res addr)

/-- One word copy of a running COPY (R157). -/
def copyOne (s : State) : State :=
  match s.slot with
  | .copy src dst n done =>
    match readTable s (src + done) with
    | .value w =>
      let s := rewrite s (dst + done) w
      if done + 1 < n then { s with slot := .copy src dst n (done + 1) } else endOperation s .copy .pass 0
    | .fault a => endOperation (offerFault s a) .copy .fault a
    | .unmapped => s
  | .empty | .verify _ _ _ _ => s

/-! ## VERIFY (R158 to R160) -/

/-- VERIFY (R158). -/
def startVerify (s : State) (b : Bank) : State × Result :=
  if !s.safeMode ∧ b = s.active then (s, .state)
  else if s.slot ≠ .empty then (s, .busy)
  else ({ s with slot := .verify b (.crc 2 crc32Init) false 0 }, .ok)

/-- The end of a VERIFY (R160): a stale one ends with STALE and no address; the result and address are recorded, the
verified flag set for PASS and cleared otherwise, and OP_DONE offered. -/
def endVerify (s : State) (b : Bank) (stale : Bool) (res : OpResult) (addr : Nat) : State :=
  let res' := if stale then .stale else res
  let addr' := if stale then 0 else addr
  endOperation { s with lastVerify := res', lastVerifyAddr := addr', verified := s.verified.put b (res' == .pass) }
    .verify res' addr'

/-- A fault met by a VERIFY: offered whatever the result, and the end (R158 to R160). -/
def verifyFault (s : State) (b : Bank) (stale : Bool) (off : Nat) : State :=
  endVerify (offerFault s (bankBase b + off)) b stale .fault (bankBase b + off)

/-- The CRC pass with one word read (R158). -/
def crcPassStep (s : State) (b : Bank) (stale : Bool) (reads next : Nat) (crc : BitVec 32) (w : Word) : State :=
  let crc := crc32Word crc w
  let pass := if next + 1 < bankWords then .crc (next + 1) crc else .declared (crc32Final crc) none
  { s with slot := .verify b pass stale (reads + 1) }

/-- The declared value from its two words (R172). -/
def declaredCrc (upper lower : Word) : BitVec 32 := upper ++ lower

/-- A declared word read (R158): the upper, and then the lower with the comparison (DESIGN CHOICE, log 21). -/
def declaredStep (s : State) (b : Bank) (stale : Bool) (reads : Nat) (crc : BitVec 32) (upper : Option Word) (w : Word) :
    State :=
  match upper with
  | none => { s with slot := .verify b (.declared crc (some w)) stale (reads + 1) }
  | some u =>
    if declaredCrc u w = crc then { s with slot := .verify b (.tables 0 .cueCount []) stale (reads + 1) }
    else endVerify s b stale .checksum 0

/-- The structure pass with the word `w` read for `item`, whose check the words `got` have brought to reading it (R159).
The cue count is kept as it is read. -/
def tablesStep (s : State) (b : Bank) (stale : Bool) (reads count : Nat) (item : CheckItem) (got : List Word) (w : Word) :
    State :=
  match feed (checkItem count item) (got ++ [w]) with
  | .read _ _ => { s with slot := .verify b (.tables count item (got ++ [w])) stale (reads + 1) }
  | .fail => endVerify s b stale .structFail (bankBase b + itemOff item)
  | .pass =>
    let count := if item = .cueCount then w.toNat else count
    match nextItem count item with
    | some i => { s with slot := .verify b (.tables count i []) stale (reads + 1) }
    | none => endVerify s b stale .pass 0

/-- The bank offset of the word a VERIFY reads next; none is left only where a check has ended. Of the two declared words the
upper is read first (DESIGN CHOICE, log 21). -/
def verifyReads : VerifyPass → Option Nat
  | .crc next _ => some next
  | .declared _ none => some 0
  | .declared _ (some _) => some 1
  | .tables count item got =>
    match feed (checkItem count item) got with
    | .read off _ => some off
    | .pass | .fail => none

/-- One word read of a running VERIFY (R158, R159). -/
def verifyOne (s : State) : State :=
  match s.slot with
  | .verify b pass stale reads =>
    match verifyReads pass with
    | none => s
    | some off =>
      match readBank s b off with
      | none => verifyFault s b stale off
      | some w =>
        match pass with
        | .crc next crc => crcPassStep s b stale reads next crc w
        | .declared crc upper => declaredStep s b stale reads crc upper w
        | .tables count item got => tablesStep s b stale reads count item got w
  | .empty | .copy _ _ _ _ => s

/-- A running table operation aborted (R155, R160), less its report: the slot empties; a VERIFY records ABORTED and its
bank's verified flag is cleared. The report to be offered comes with it. -/
def abortOperation (s : State) : State × Option ReportKind :=
  match s.slot with
  | .empty => (s, none)
  | .copy _ _ _ _ => ({ s with slot := .empty }, some (.opDone .copy .aborted 0))
  | .verify b _ _ _ =>
    ({ s with slot := .empty, lastVerify := .aborted, lastVerifyAddr := 0, verified := s.verified.put b false },
      some (.opDone .verify .aborted 0))

/-! ## SWITCH (R161, R162) -/

/-- R162 step 2: held edits are discarded where hold was on and a shadow word differs from the old live word. -/
def heldEdits (s : State) : Bool :=
  s.patchHold && tableOffs.any fun off => (liveStored s off).val != shadowWord s off

/-- A taken SWITCH of bank `b` (R162), with the held-edits indication. -/
def switchTo (s : State) (b : Bank) : State × Bool :=
  let held := !s.safeMode && heldEdits s
  let s := if s.safeMode then s else clearVerified s (otherBank b)
  let s := { rewrite s selectionAddr (wordOf (bankCode b)) with active := b, safeMode := false, patchHold := false }
  let s := buildIndex (loadShadow s) b
  (offerReport s (.switched b held), held)

/-- SWITCH (R161). -/
def switchBank (s : State) (b : Bank) : State × Result × Bool :=
  if !s.safeMode ∧ b = s.active then (s, .state, false)
  else if s.slot ≠ .empty then (s, .busy, false)
  else if !s.verified.get b then (s, .notVerified, false)
  else if s.playbacks.any playbackActive then (s, .playbacksLive, false)
  else
    let r := switchTo s b
    (r.1, .ok, r.2)

end Sys2Proof.Machine
end

