-- ==== Sys2Proof/Machine/Requests.lean ====
section
/-! DEFINITION. The request engine (09_requests_replies_and_the_table_space.md): what each request does, the checks of
R135 and R136 around it, its reply, and RESTART. -/

namespace Sys2Proof.Machine

/-- What a request answers: the state it leaves, its result code, and the data of its reply. -/
structure Answer where
  state  : State
  result : Result
  data   : List Byte

/-- An answer without data. -/
def plain (r : State × Result) : Answer := ⟨r.1, r.2, []⟩

/-! ## The requests -/

/-- INDEX (R137). -/
def answerIndex (s : State) (x : Link) (addr : Addr) : Answer :=
  ⟨{ s with tableIndex := s.tableIndex.put x addr.toNat }, .ok, []⟩

/-- A WRITE from address `a` (R138); its reply gives the number of words taken (R142). -/
def answerWrite (s : State) (x : Link) (a : Nat) (ws : List Word) : Answer :=
  let r := writeFrom s x a ws
  ⟨r.1, r.2.2, [byteOf r.2.1]⟩

/-- READ (R139); its reply gives the words returned (R142). -/
def answerRead (s : State) (x : Link) (n : Nat) : Answer :=
  let a := s.tableIndex.get x
  let r := readWords s a n
  let t := { s with tableIndex := s.tableIndex.put x ((a + r.1.length) % 0x1000000) }
  ⟨match r.2.2 with | some f => offerFault t f | none => t, r.2.1, r.1.flatMap wordBytes⟩

/-- The two bytes of the number of differing words in a refused APPLY's reply: a value the spec does not state (log 4). -/
def unstatedCount (s : State) : List Byte := wordBytes (Config.freeWord s.freeDraws)

/-- APPLY (R153); its reply gives the number of words that differed (R142). -/
def answerApply (s : State) : Answer :=
  let r := applyPatch s
  if r.2.1 = .ok then ⟨r.1, r.2.1, wordBytes (wordOf r.2.2)⟩
  else ⟨{ r.1 with freeDraws := r.1.freeDraws + 1 }, r.2.1, unstatedCount s⟩

/-- SWITCH (R161, R162); its reply gives whether held edits were discarded (R142). -/
def answerSwitch (s : State) (b : Bank) : Answer :=
  let r := switchBank s b
  ⟨r.1, r.2.1, [if r.2.2 then 1 else 0]⟩

/-- The actions 1 to 7 of a RESTART (R146): the fade engine cleared, the table operation aborted, patch hold released and
the shadow reloaded, the queues and the fault list emptied, and the report of an aborted operation. -/
def restartPart (s : State) : State :=
  let r := abortOperation (clearFades s)
  let s := { r.1 with patchHold := false }
  let s := if s.safeMode then s else loadShadow s
  let s := { s with replies := ⟨[], []⟩, reports := [], dropMark := false, faultList := [], faultOverflow := false }
  match r.2 with
  | some k => offerReport s k
  | none => s

/-- A request that has passed the checks of R135 and R136, decided by its owning block (R141). Playbacks and banks are in
their ranges. -/
def answer (s : State) (x : Link) : Request → Answer
  | .index addr => answerIndex s x addr
  | .write ws => answerWrite s x (s.tableIndex.get x) ws
  | .read n => answerRead s x n.toNat
  | .hold => plain (holdPatch s)
  | .apply => answerApply s
  | .discard => plain (discardPatch s)
  | .copy src dst n => plain (startCopy s src.toNat dst.toNat n.toNat)
  | .verify n => plain (startVerify s ((bankOf n).getD .b0))
  | .switch n => answerSwitch s ((bankOf n).getD .b0)
  | .go p => plain (goPlayback s ((playbackOf p).getD 0))
  | .back p => plain (backPlayback s ((playbackOf p).getD 0))
  | .goto p n t => plain (gotoPlayback s ((playbackOf p).getD 0) n.toNat t)
  | .pause p => plain (pausePlayback s ((playbackOf p).getD 0))
  | .resume p => plain (resumePlayback s ((playbackOf p).getD 0))
  | .release p t => plain (releasePlayback s ((playbackOf p).getD 0) t)
  | .take => plain (takeControl s x)
  | .lock => plain (lockControl s)
  | .unlock => plain (unlockControl s)
  | .restart => ⟨restartPart s, .ok, []⟩

/-! ## Replies and checks (R10, R135, R136, R142) -/

/-- The answer to a request refused by the checks of R135: nothing changes, and the reply's data says so. An APPLY's
number of differing words is not stated (log 4). -/
def refusal (s : State) (code : Byte) (r : Result) : Answer :=
  if code = 0x11 then ⟨{ s with freeDraws := s.freeDraws + 1 }, r, unstatedCount s⟩
  else if code = 0x02 ∨ code = 0x15 then ⟨s, r, [0]⟩
  else ⟨s, r, []⟩

/-- The reply to a request (R142): none to a broadcast. -/
def reply (r : Req) (code : Byte) (a : Answer) : State :=
  if broadcast r then a.state else queueReply a.state r.link ⟨r.unit, r.tag, code, a.result, a.data⟩

/-- The dropped-request counter of a link increased by 1 (R10, R17). -/
def countDropped (s : State) (x : Link) : State :=
  let l := linkOf s x
  setLink s x { l with counters := { l.counters with dropped := bump l.counters.dropped } }

/-- Whether a request finds no slot in its link's reply queue (R10). -/
def noSlot (s : State) (r : Req) : Bool := !broadcast r && 4 ≤ (s.replies.get r.link).length

/-- The taking of a request whose code and parameters are a request's, or no request's at all (R10, R135): before the end
of the power-up check nothing is executed (R11, R147); without a slot it is dropped; then the checks in their order, and
the reply. `run` is what the request does once it has passed them. -/
def takeWith (s : State) (r : Req) (code : Byte) (valid ownerOnly : Bool) (run : State → Answer) : State :=
  if s.phase ≠ .running then s
  else if noSlot s r then countDropped s r.link
  else if !valid then reply r code (refusal s code .badRequest)
  else if ownerOnly ∧ s.arb.owner ≠ r.link then reply r code (refusal s code .notOwner)
  else reply r code (run s)

/-- The taking of a request (R135). -/
def takeRequest (s : State) (r : Req) (q : Request) : State :=
  takeWith s r q.code q.inRange q.ownerOnly fun s => answer s r.link q

/-- A WRITE of the one word `v` that is met with its link's index at address `a` (log 7). -/
def takeWordWrite (s : State) (r : Req) (a : Nat) (v : Word) : State :=
  takeWith s r 0x02 true true fun s => answerWrite s r.link a [v]

/-- The taking of a request by its code and parameter bytes (R135): where they spell no request it is malformed. -/
def takeBytes (s : State) (r : Req) (code : Byte) (params : List Byte) : State :=
  match parseRequest code params with
  | some q => takeRequest s r q
  | none => takeWith s r code false false fun s => ⟨s, .badRequest, []⟩

end Sys2Proof.Machine
end

