-- ==== Sys2Proof/Machine/Links.lean ====
section
/-! DEFINITION. The link receivers (01_console_links.md): bytes, frames and their checks, level frames and the link
state, request frames and the unit filter, and the loss timer. -/

namespace Sys2Proof.Machine

/-! ## Discards (R3 to R6, R13) -/

/-- A frame discarded with one error counter increased: the reception state it leaves, and a link in ACQUIRING back to an
acquisition count of 0 (R6, R13). -/
def discard (s : State) (x : Link) (rx : Reception) (count : LinkCounters → LinkCounters) : State :=
  let l := linkOf s x
  setLink s x { l with rx := rx, counters := count l.counters, acq := if l.state = .acquiring then 0 else l.acq }

/-! ## Level frames (R7, R13, R16) -/

/-- Level bytes written to the buffer from channel `b` on (R7). -/
def writeLevels (buf : Table Nat) (b : Nat) : List Byte → Table Nat
  | [] => buf
  | v :: vs => writeLevels (tset zeroLevel buf b v.toNat) (b + 1) vs

/-- A change of a link into LIVE or DOWN: its report, and the notice to the arbiter (R16). `k` is K just before it. -/
def notifyLive (s : State) (x : Link) (k : Table Nat) : State := noticeLive (offerReport s (.linkLive x)) x k

def notifyDown (s : State) (x : Link) (k : Table Nat) : State := noticeDown (offerReport s (.linkDown x)) x k

/-- A good level frame acts on its link's state (R13). -/
def acquire (s : State) (x : Link) : State :=
  let l := linkOf s x
  match l.state with
  | .down => setLink s x { l with state := .acquiring, acq := 1, timer := some 0 }
  | .acquiring =>
    if l.acq < 2 then setLink s x { l with acq := l.acq + 1, timer := some 0 }
    else notifyLive (setLink s x { l with state := .live, acq := 0, timer := some 0 }) x (snapshotNow s)
  | .live => setLink s x { l with timer := some 0 }

/-- The acceptance of a LEVEL frame with base channel `b` (R7, R13, R24). -/
def acceptLevels (s : State) (x : Link) (b : Nat) (levels : List Byte) : State :=
  let l := linkOf s x
  let s := setLink s x { l with
    buffer := writeLevels l.buffer b levels, counters := { l.counters with goodLevel := bump l.counters.goodLevel } }
  acquire (clearHoldoff s x) x

/-! ## Request frames (R9, R10, R11) -/

/-- The acceptance of a REQUEST frame: counted, discarded during the power-up check, filtered by its unit, and handed. -/
def acceptRequest (s : State) (x : Link) (unit tag code : Byte) (params : List Byte) : State :=
  let l := linkOf s x
  let s := setLink s x { l with counters := { l.counters with goodRequest := bump l.counters.goodRequest } }
  if s.phase ≠ .running then s
  else if unit = 0 ∨ unit.toNat = s.working.unit then takeBytes s ⟨x, unit, tag⟩ code params
  else
    let l := linkOf s x
    setLink s x { l with counters := { l.counters with filtered := bump l.counters.filtered } }

/-! ## Completion (R5) -/

def countCrc (c : LinkCounters) : LinkCounters := { c with crc := bump c.crc }
def countLength (c : LinkCounters) : LinkCounters := { c with length := bump c.length }
def countGap (c : LinkCounters) : LinkCounters := { c with gap := bump c.gap }
def countOversize (c : LinkCounters) : LinkCounters := { c with oversize := bump c.oversize }
def countUnknown (c : LinkCounters) : LinkCounters := { c with unknownType := bump c.unknownType }

/-- The checks of R5 on a complete frame, with the receiver back in HUNT. -/
def frameDone (s : State) (x : Link) (typ : Byte) (payload : List Byte) (crcHi crcLo : Byte) : State :=
  if crc16 (typ :: wordBytes (wordOf payload.length) ++ payload) ≠ wordOfBytes crcHi crcLo then
    discard s x .hunt countCrc
  else if typ = 0x10 then
    match payload with
    | b1 :: b0 :: levels =>
      let b := (wordOfBytes b1 b0).toNat
      if levels ≠ [] ∧ 1 ≤ b ∧ b ≤ 512 ∧ b + levels.length ≤ 513 then
        acceptLevels (setLink s x { linkOf s x with rx := .hunt }) x b levels
      else discard s x .hunt countLength
    | _ => discard s x .hunt countLength
  else if typ = 0x20 then
    match payload with
    | unit :: tag :: code :: params =>
      acceptRequest (setLink s x { linkOf s x with rx := .hunt }) x unit tag code params
    | _ => discard s x .hunt countLength
  else discard s x .hunt countUnknown

/-! ## Bytes (R2, R4) -/

/-- The payload length that two header bytes and the third give. -/
def headerLength (hi lo : Byte) : Nat := hi.toNat * 256 + lo.toNat

/-- A header byte (R2, R4). -/
def headerByte (s : State) (x : Link) (got : List Byte) (b : Byte) : State :=
  match got with
  | [typ, hi] =>
    if 520 < headerLength hi b then discard s x .drain countOversize
    else setLink s x { linkOf s x with rx := .body typ (headerLength hi b) [] none }
  | _ => setLink s x { linkOf s x with rx := .header (got ++ [b]) }

/-- A byte of the payload or of the CRC (R2, R5). -/
def bodyByte (s : State) (x : Link) (typ : Byte) (len : Nat) (payload : List Byte) (crcHi : Option Byte) (b : Byte) :
    State :=
  if payload.length < len then setLink s x { linkOf s x with rx := .body typ len (payload ++ [b]) none }
  else
    match crcHi with
    | none => setLink s x { linkOf s x with rx := .body typ len payload (some b) }
    | some hi => frameDone s x typ payload hi b

/-- A byte on a link's receive input, taken according to the reception state (R2); none is taken while the reset line is
asserted (R18). -/
def takeByte (s : State) (x : Link) (b : Byte) : State :=
  if s.phase = .inReset then s
  else
    match (linkOf s x).rx with
    | .hunt => if b = 0xE7 then setLink s x { linkOf s x with rx := .header [] } else s
    | .header got => headerByte s x got b
    | .body typ len payload crcHi => bodyByte s x typ len payload crcHi b
    | .drain => s

/-- Whether the next byte on a link is the second CRC byte of a frame (R2, R5). -/
def completionDue (s : State) (x : Link) : Bool :=
  s.phase != .inReset &&
    match (linkOf s x).rx with
    | .body _ len payload (some _) => len ≤ payload.length
    | _ => false

/-- Whether `b`, taken as the next byte on a link, is a third header byte that makes the length more than 520 (R4). -/
def oversizeDue (s : State) (x : Link) (b : Byte) : Bool :=
  s.phase != .inReset &&
    match (linkOf s x).rx with
    | .header [_, hi] => 520 < headerLength hi b
    | _ => false

/-- More than 100 µs of idle time inside a frame (R3). -/
def gapExceeded (s : State) (x : Link) : State :=
  match (linkOf s x).rx with
  | .header _ | .body _ _ _ _ => discard s x .hunt countGap
  | .hunt | .drain => s

/-- More than 100 µs of idle time in DRAIN (R4). -/
def drainEnds (s : State) (x : Link) : State :=
  match (linkOf s x).rx with
  | .drain => setLink s x { linkOf s x with rx := .hunt }
  | .hunt | .header _ | .body _ _ _ _ => s

/-! ## The loss timer (R14, R15) -/

/-- Whether the next step expiry makes the loss timer expire (R14). -/
def lossDue (s : State) (x : Link) : Bool :=
  match (linkOf s x).timer with
  | some n => s.working.lossTime ≤ n + 1
  | none => false

/-- A step expiry of a link receiver (R14, R15). -/
def lossTick (s : State) (x : Link) : State :=
  let l := linkOf s x
  match l.timer with
  | none => s
  | some n =>
    if lossDue s x then notifyDown (setLink s x { l with state := .down, acq := 0, timer := none }) x (snapshotNow s)
    else setLink s x { l with timer := some (n + 1) }

end Sys2Proof.Machine
end

