-- ==== Sys2Proof/Machine/PowerUp.lean ====
section
/-! DEFINITION. Full reset, the power-up check and the arising of parity faults (11_table_memory_integrity_and_start_up.md). -/

namespace Sys2Proof.Machine

/-- A key as full reset leaves it (R75): its input pin stands as it stood. -/
def resetKey (k : KeyState) : KeyState := { KeyState.reset with input := k.input }

/-- The part in full reset (R18, R37, R77, R128, R134, R147, R154, R155, R165): the retained store, the key inputs and the
commands that wait are as they were, and every other piece of state is at its reset value. -/
def resetPart (s : State) : State :=
  { State.reset with
    pending := s.pending, store := s.store, freeDraws := s.freeDraws,
    panel := ⟨resetKey s.panel.go, resetKey s.panel.back, resetKey s.panel.pause⟩ }

/-! ## The repair of the settings and curves (R167) -/

/-- The addresses of the settings words the check reads, in ascending order. -/
def settingAddrs : List Nat :=
  (List.range 28).map globalAddr ++
    allPlaybacks.flatMap (fun p => (List.range 5).map (playbackAddr p)) ++ [selectionAddr]

/-- One settings word read: kept without fault, and otherwise offered and rewritten to its default. -/
def repairWord (s : State) (a : Nat) : State :=
  if (stored s a).bad then rewrite (offerFault s a) a (defaultWord a) else s

/-- The point numbers of a curve. -/
def pointList : List Nat := List.range 33

/-- One curve read: kept without fault; at its first faulted point the address is offered and the whole curve is rewritten
to the linear points. -/
def repairCurve (s : State) (g : Nat) : State :=
  match pointList.find? (fun i => (stored s (curveAddr g i)).bad) with
  | none => s
  | some i =>
    rewriteAll (offerFault s (curveAddr g i)) (pointList.map fun j => (curveAddr g j, wordOf (linearPoint j)))

/-- The working copies loaded from the repaired words (R123, R163). -/
def loadWorking (s : State) : State :=
  { s with working := (List.range 28).foldl (fun w i => loadSetting w i (stored s (globalAddr i)).val) s.working }

/-- The start of the power-up check (R37, R77, R167): the repair, the working copies, the arbiter and the playbacks. The
volatile copy of the selection takes the word as the repair leaves it (log 9). -/
def releaseReset (s : State) : State :=
  if s.phase ≠ .inReset then s
  else
    let s := { s with phase := .checking, faultList := [], faultOverflow := false }
    let s := settingAddrs.foldl repairWord s
    let s := (List.range' 1 7).foldl repairCurve s
    let s := loadWorking s
    let s := { s with active := bankOfWord (stored s selectionAddr).val }
    clearFades (arbiterInit s)

/-! ## The examination of the banks and the end of the check (R168, R169) -/

/-- A bank examined: whether it passes; a parity fault met offers its address. -/
def examineBank (s : State) (b : Bank) : State × Bool :=
  match examine s b with
  | .pass => (s, true)
  | .fail => (s, false)
  | .fault off => (offerFault s (bankBase b + off), false)

/-- The outcome of the check (R168). -/
def decideBank (s : State) : State × StartResult :=
  let first := examineBank s s.active
  if first.2 then ({ first.1 with safeMode := false }, .normal)
  else
    let other := otherBank s.active
    let second := examineBank first.1 other
    if second.2 then
      ({ rewrite second.1 selectionAddr (wordOf (bankCode other)) with active := other, safeMode := false }, .fallback)
    else ({ second.1 with safeMode := true }, .safe)

/-- The shadow and the stack index at the end of the check (R44, R149, R169). -/
def loadBank (s : State) (r : StartResult) : State :=
  let s := { s with patchHold := false }
  match r with
  | .safe => { s with stackIndex := Vector.replicate 16 [] }
  | .normal | .fallback => buildIndex (loadShadow s) s.active

/-- The end of the power-up check (R169): the bank, the shadow and the index, the STARTUP report, the lines, and from then
on requests and return-line frames. -/
def endCheck (s : State) : State :=
  if s.phase ≠ .checking then s
  else
    let r := decideBank s
    let s := offerReport (loadBank r.1 r.2) (.startup r.2)
    let s := allLines.foldl startLine s
    let s := { s with phase := .running }
    startIfIdle (startIfIdle s .a) .b

/-! ## Parity faults (R163) -/

/-- A retained word comes to hold a parity fault; its stored value is then `v` (log 10). No other address has parity. -/
def parityFaultAt (s : State) (a : Nat) (v : Word) : State := if retained a then breakParity s a v else s

end Sys2Proof.Machine
end

