-- ==== Sys2Proof/Machine/ArbiterFamily.lean ====
section
/-! DEFINITION. The meanings of the commands of the control arbiter: its step expiry and the events it brings about
(log 6), and the requests TAKE, LOCK and UNLOCK. -/

namespace Sys2Proof.Machine

/-- ARBITER_STEP (R29, R32 to R34). -/
def execArbiterStep (s : State) : Host.Outcome State Fault Refusal := .next (arbiterTick s)

/-- HANDOVER_COMPLETE (R32): the step expiry that completes the handover. -/
def execHandoverComplete (s : State) : Host.Outcome State Fault Refusal :=
  if handoverDue s then .next (arbiterTick s) else .next s

/-- LOSS_FADE_START (R33): the step expiry that ends the hold. -/
def execLossFadeStart (s : State) : Host.Outcome State Fault Refusal :=
  if lossFadeDue s then .next (arbiterTick s) else .next s

/-- LOSS_FADE_END (R34): the step expiry that completes the loss fade. -/
def execLossFadeEnd (s : State) : Host.Outcome State Fault Refusal :=
  if darkDue s then .next (arbiterTick s) else .next s

/-- TAKE (R22). -/
def execTake (r : Req) (s : State) : Host.Outcome State Fault Refusal := .next (takeRequest s r .take)

/-- LOCK (R23). -/
def execLock (r : Req) (s : State) : Host.Outcome State Fault Refusal := .next (takeRequest s r .lock)

/-- UNLOCK (R23). -/
def execUnlock (r : Req) (s : State) : Host.Outcome State Fault Refusal := .next (takeRequest s r .unlock)

end Sys2Proof.Machine
end

