-- ==== Sys2Proof/Machine/BankFamily.lean ====
section
/-! DEFINITION. The meanings of the commands of the show banks and the table operation slot, and of RESTART. -/

namespace Sys2Proof.Machine

/-- HOLD (R153). -/
def execHold (r : Req) (s : State) : Host.Outcome State Fault Refusal := .next (takeRequest s r .hold)

/-- APPLY (R153). -/
def execApply (r : Req) (s : State) : Host.Outcome State Fault Refusal := .next (takeRequest s r .apply)

/-- DISCARD (R153). -/
def execDiscard (r : Req) (s : State) : Host.Outcome State Fault Refusal := .next (takeRequest s r .discard)

/-- COPY (R156). -/
def execCopy (r : Req) (src dst count : Addr) (s : State) : Host.Outcome State Fault Refusal :=
  .next (takeRequest s r (.copy src dst count))

/-- COPY_WORD (R157): it comes about only while a COPY runs. -/
def execCopyWord (s : State) : Host.Outcome State Fault Refusal := .next (copyOne s)

/-- VERIFY (R158). -/
def execVerify (r : Req) (bank : Byte) (s : State) : Host.Outcome State Fault Refusal :=
  .next (takeRequest s r (.verify bank))

/-- VERIFY_WORD (R158 to R160): it comes about only while a VERIFY runs. -/
def execVerifyWord (s : State) : Host.Outcome State Fault Refusal := .next (verifyOne s)

/-- SWITCH (R161, R162). -/
def execSwitch (r : Req) (bank : Byte) (s : State) : Host.Outcome State Fault Refusal :=
  .next (takeRequest s r (.switch bank))

/-- RESTART (R146). -/
def execRestart (r : Req) (s : State) : Host.Outcome State Fault Refusal := .next (takeRequest s r .restart)

end Sys2Proof.Machine
end

