-- ==== Sys2Proof/Machine/LineFamily.lean ====
section
/-! DEFINITION. The meanings of the commands of the output lines and of the return lines (log 6). -/

namespace Sys2Proof.Machine

/-- LINE_STEP (R125). -/
def execLineStep (k : LineNo) (s : State) : Host.Outcome State Fault Refusal := .next (lineTick s k)

/-- PERIOD_TIMER_EXPIRY (R124): the step expiry that brings the period timer to the period. -/
def execPeriodTimerExpiry (k : LineNo) (s : State) : Host.Outcome State Fault Refusal :=
  if periodDue s k then .next (lineTick s k) else .next s

/-- CIRCUIT_COMPOSITION (R127): the next circuit of the line's frame. -/
def execCircuitComposition (k : LineNo) (s : State) : Host.Outcome State Fault Refusal := .next (composeNext s k)

/-- END_OF_FRAME (R131): it comes about once the frame's circuits have all been composed. -/
def execEndOfFrame (k : LineNo) (s : State) : Host.Outcome State Fault Refusal := .next (frameEnd s k)

/-- RETURN_FRAME_START (R145): it comes about where the transmitter is idle and an item waits that it may send. -/
def execReturnFrameStart (x : Link) (s : State) : Host.Outcome State Fault Refusal := .next (startIfIdle s x)

/-- RETURN_FRAME_END (R145): it comes about while the transmitter is sending. -/
def execReturnFrameEnd (x : Link) (s : State) : Host.Outcome State Fault Refusal :=
  if s.tx.get x = none then .next s else .next (startFrame s x)

end Sys2Proof.Machine
end

