-- ==== Sys2Proof/Machine/LinkFamily.lean ====
section
/-! DEFINITION. The meanings of the commands of the link receivers. A command that names an event (FRAME_COMPLETE,
OVERSIZE_FRAME, LOSS_TIMER_EXPIRY) is the byte or the step expiry that brings the event about; where the state does not
bring it about, nothing happens (log 6). -/

namespace Sys2Proof.Machine

/-- RECEIVED_BYTE (R2). -/
def execReceivedByte (x : Link) (b : Byte) (s : State) : Host.Outcome State Fault Refusal := settle (takeByte s x b)

/-- FRAME_COMPLETE (R5): the second CRC byte of a frame. -/
def execFrameComplete (x : Link) (b : Byte) (s : State) : Host.Outcome State Fault Refusal :=
  if completionDue s x then settle (takeByte s x b) else .next s

/-- GAP_ERROR (R3). -/
def execGapError (x : Link) (s : State) : Host.Outcome State Fault Refusal := .next (gapExceeded s x)

/-- OVERSIZE_FRAME (R4): the third header byte of a frame whose payload length is above 520. -/
def execOversizeFrame (x : Link) (b : Byte) (s : State) : Host.Outcome State Fault Refusal :=
  if oversizeDue s x b then settle (takeByte s x b) else .next s

/-- DRAIN_END (R4). -/
def execDrainEnd (x : Link) (s : State) : Host.Outcome State Fault Refusal := .next (drainEnds s x)

/-- LOSS_TIMER_STEP (R14). -/
def execLossTimerStep (x : Link) (s : State) : Host.Outcome State Fault Refusal := .next (lossTick s x)

/-- LOSS_TIMER_EXPIRY (R15): the step expiry at which the loss timer reaches the loss time. -/
def execLossTimerExpiry (x : Link) (s : State) : Host.Outcome State Fault Refusal :=
  if lossDue s x then .next (lossTick s x) else .next s

end Sys2Proof.Machine
end

