-- ==== Sys2Proof/Machine/PlaybackFamily.lean ====
section
/-! DEFINITION. The meanings of the playback requests, of the fade engine's step expiry with the events it brings about
(log 6), and of the stage panel. -/

namespace Sys2Proof.Machine

/-- GO (R67). -/
def execGo (r : Req) (playback : Byte) (s : State) : Host.Outcome State Fault Refusal :=
  settle (takeRequest s r (.go playback))

/-- BACK (R68). -/
def execBack (r : Req) (playback : Byte) (s : State) : Host.Outcome State Fault Refusal :=
  settle (takeRequest s r (.back playback))

/-- GOTO (R69). -/
def execGoto (r : Req) (playback : Byte) (cue : Word) (time : Option Word) (s : State) :
    Host.Outcome State Fault Refusal :=
  settle (takeRequest s r (.goto playback cue time))

/-- PAUSE (R70). -/
def execPause (r : Req) (playback : Byte) (s : State) : Host.Outcome State Fault Refusal :=
  .next (takeRequest s r (.pause playback))

/-- RESUME (R70). -/
def execResume (r : Req) (playback : Byte) (s : State) : Host.Outcome State Fault Refusal :=
  .next (takeRequest s r (.resume playback))

/-- RELEASE (R71). -/
def execRelease (r : Req) (playback : Byte) (time : Option Word) (s : State) : Host.Outcome State Fault Refusal :=
  .next (takeRequest s r (.release playback time))

/-! ## Step expiries -/

/-- FADE_STEP (R64, R65, R75). -/
def execFadeStep (o : StepOrder) (s : State) : Host.Outcome State Fault Refusal := settle (fadeTick s o)

/-- A playback's fade advances at the next step expiry (R64). -/
def advances (s : State) (p : PlaybackNo) : Bool :=
  s.phase != .inReset && ((playbackAt s p).state == .fading || (playbackAt s p).state == .releasing)

/-- Whether the next step expiry ends the delay of a playback's part (R64). -/
def delayEndDue (s : State) (p : PlaybackNo) (part : PartName) : Bool :=
  advances s p && (partOf (playbackAt s p) part).phase == .delay && (partOf (playbackAt s p) part).delay ≤ 1

/-- Whether the next step expiry completes a playback's cue (R64). -/
def completionDueAt (s : State) (p : PlaybackNo) : Bool :=
  advances s p && (playbackAt s p).state == .fading && partsDone (advanceParts (playbackAt s p))

/-- Whether the next step expiry completes a playback's release (R72). -/
def releaseDueAt (s : State) (p : PlaybackNo) : Bool :=
  advances s p && (playbackAt s p).state == .releasing && partsDone (advanceParts (playbackAt s p))

/-- Whether the next step expiry makes a playback's follow expire (R65). -/
def followDueAt (s : State) (p : PlaybackNo) : Bool :=
  s.phase != .inReset && (playbackAt s p).state == .atCue &&
    match (playbackAt s p).follow with
    | some n => n ≤ 1
    | none => false

/-- PART_DELAY_END (R64): the step expiry that ends the delay of a part. -/
def execPartDelayEnd (p : PlaybackNo) (part : PartName) (o : StepOrder) (s : State) : Host.Outcome State Fault Refusal :=
  if delayEndDue s p part then settle (fadeTick s o) else .next s

/-- CUE_COMPLETION (R64): the step expiry that completes a cue. -/
def execCueCompletion (p : PlaybackNo) (o : StepOrder) (s : State) : Host.Outcome State Fault Refusal :=
  if completionDueAt s p then settle (fadeTick s o) else .next s

/-- RELEASE_COMPLETION (R72): the step expiry that completes a release. -/
def execReleaseCompletion (p : PlaybackNo) (o : StepOrder) (s : State) : Host.Outcome State Fault Refusal :=
  if releaseDueAt s p then settle (fadeTick s o) else .next s

/-- FOLLOW_EXPIRY (R65): the step expiry that brings a follow timer to 0. -/
def execFollowExpiry (p : PlaybackNo) (o : StepOrder) (s : State) : Host.Outcome State Fault Refusal :=
  if followDueAt s p then settle (fadeTick s o) else .next s

/-! ## The stage panel -/

/-- KEY_INPUT_CHANGE (R75): a change of the input's level sets the stability timer to 0; a level that already stands is no
change. -/
def execKeyInputChange (k : Key) (pressed : Bool) (s : State) : Host.Outcome State Fault Refusal :=
  if (keyState s.panel k).input = pressed then .next s
  else .next { s with panel := setKey s.panel k { keyState s.panel k with input := pressed, stable := 0 } }

/-- KEY_PRESSED (R76): the step expiry that recognises a key as PRESSED. -/
def execKeyPressed (k : Key) (o : StepOrder) (s : State) : Host.Outcome State Fault Refusal :=
  if pressDue s k then settle (fadeTick s o) else .next s

/-- KEY_RELEASED (R75): the step expiry that recognises a key as RELEASED. -/
def execKeyReleased (k : Key) (o : StepOrder) (s : State) : Host.Outcome State Fault Refusal :=
  if releaseDue s k then settle (fadeTick s o) else .next s

end Sys2Proof.Machine
end

