-- ==== Sys2Proof/Machine/ResetFamily.lean ====
section
/-! DEFINITION. The meanings of the reset commands and of the arising of a parity fault. -/

namespace Sys2Proof.Machine

/-- FULL_RESET: power-on or the reset line asserted (R18). -/
def execFullReset (s : State) : Host.Outcome State Fault Refusal := .next (resetPart s)

/-- RESET_RELEASE (R167). It comes about only in full reset. -/
def execResetRelease (s : State) : Host.Outcome State Fault Refusal := .next (releaseReset s)

/-- POWER_UP_CHECK_END (R169). It comes about only during the check. -/
def execPowerUpCheckEnd (s : State) : Host.Outcome State Fault Refusal := .next (endCheck s)

/-- PARITY_FAULT (R163). -/
def execParityFault (addr : Addr) (v : Word) (s : State) : Host.Outcome State Fault Refusal :=
  .next (parityFaultAt s addr.toNat v)

end Sys2Proof.Machine
end

