-- ==== Sys2Proof/Machine/TableFamily.lean ====
section
/-! DEFINITION. The meanings of the requests that reach the table space: INDEX, WRITE with its single words, and READ. A
command that names the write of one word is the WRITE of that word, met with its link's index at the word's address
(log 7). -/

namespace Sys2Proof.Machine

/-- INDEX (R137). -/
def execIndex (r : Req) (addr : Addr) (s : State) : Host.Outcome State Fault Refusal :=
  .next (takeRequest s r (.index addr))

/-- WRITE (R138). -/
def execWrite (r : Req) (ws : List Word) (s : State) : Host.Outcome State Fault Refusal :=
  .next (takeRequest s r (.write ws))

/-- READ (R139). -/
def execRead (r : Req) (count : Word) (s : State) : Host.Outcome State Fault Refusal :=
  .next (takeRequest s r (.read count))

/-- SOURCE_MODE_WRITE (R35). -/
def execSourceModeWrite (r : Req) (v : Word) (s : State) : Host.Outcome State Fault Refusal :=
  .next (takeWordWrite s r (globalAddr 0) v)

/-- PREFERRED_LINK_WRITE (R36). -/
def execPreferredLinkWrite (r : Req) (v : Word) (s : State) : Host.Outcome State Fault Refusal :=
  .next (takeWordWrite s r (globalAddr 1) v)

/-- BOUND_STACK_WRITE (R54). -/
def execBoundStackWrite (r : Req) (p : PlaybackNo) (v : Word) (s : State) : Host.Outcome State Fault Refusal :=
  .next (takeWordWrite s r (playbackAddr p 0) v)

/-- UNIT_NUMBER_WRITE (R139). -/
def execUnitNumberWrite (r : Req) (v : Word) (s : State) : Host.Outcome State Fault Refusal :=
  .next (takeWordWrite s r (globalAddr 9) v)

/-- LINE_ENABLE_WRITE (R133). -/
def execLineEnableWrite (r : Req) (k : LineNo) (v : Word) (s : State) : Host.Outcome State Fault Refusal :=
  .next (takeWordWrite s r (lineAddr k) v)

/-- COUNTER_CLEAR (R17): the counters are status offsets 2 to 23; another offset names no counter. -/
def execCounterClear (r : Req) (off : Nat) (v : Word) (s : State) : Host.Outcome State Fault Refusal :=
  if 2 ≤ off ∧ off ≤ 23 then .next (takeWordWrite s r (statusAddr off) v) else .next s

/-- ACTIVE_BANK_WRITE (R150): in safe mode no bank is active, and an offset past the bank names no word. -/
def execActiveBankWrite (r : Req) (off : Nat) (v : Word) (s : State) : Host.Outcome State Fault Refusal :=
  if s.safeMode = false ∧ off < bankWords then .next (takeWordWrite s r (bankBase s.active + off) v) else .next s

/-- STAGED_BANK_WRITE (R152): a bank that is active is not staged, and an offset past the bank names no word. -/
def execStagedBankWrite (r : Req) (bank : Bank) (off : Nat) (v : Word) (s : State) : Host.Outcome State Fault Refusal :=
  if isActive s bank = false ∧ off < bankWords then .next (takeWordWrite s r (bankBase bank + off) v) else .next s

end Sys2Proof.Machine
end

