-- ==== Sys2Proof/Machine/Dispatch.lean ====
section
/-! DEFINITION. The meaning of every command: one arm per constructor of Instr, each one call of the command's own
meaning. -/

namespace Sys2Proof.Machine

def exec (i : Instr) (s : State) : Host.Outcome State Fault Refusal :=
  match i with
  | .fullReset => Sys2Proof.Machine.execFullReset s
  | .resetRelease => Sys2Proof.Machine.execResetRelease s
  | .powerUpCheckEnd => Sys2Proof.Machine.execPowerUpCheckEnd s
  | .frameComplete x b => Sys2Proof.Machine.execFrameComplete x b s
  | .gapError x => Sys2Proof.Machine.execGapError x s
  | .oversizeFrame x b => Sys2Proof.Machine.execOversizeFrame x b s
  | .drainEnd x => Sys2Proof.Machine.execDrainEnd x s
  | .lossTimerStep x => Sys2Proof.Machine.execLossTimerStep x s
  | .lossTimerExpiry x => Sys2Proof.Machine.execLossTimerExpiry x s
  | .arbiterStep => Sys2Proof.Machine.execArbiterStep s
  | .handoverComplete => Sys2Proof.Machine.execHandoverComplete s
  | .lossFadeStart => Sys2Proof.Machine.execLossFadeStart s
  | .lossFadeEnd => Sys2Proof.Machine.execLossFadeEnd s
  | .index r addr => Sys2Proof.Machine.execIndex r addr s
  | .write r ws => Sys2Proof.Machine.execWrite r ws s
  | .sourceModeWrite r v => Sys2Proof.Machine.execSourceModeWrite r v s
  | .preferredLinkWrite r v => Sys2Proof.Machine.execPreferredLinkWrite r v s
  | .boundStackWrite r p v => Sys2Proof.Machine.execBoundStackWrite r p v s
  | .unitNumberWrite r v => Sys2Proof.Machine.execUnitNumberWrite r v s
  | .lineEnableWrite r k v => Sys2Proof.Machine.execLineEnableWrite r k v s
  | .counterClear r off v => Sys2Proof.Machine.execCounterClear r off v s
  | .activeBankWrite r off v => Sys2Proof.Machine.execActiveBankWrite r off v s
  | .stagedBankWrite r bank off v => Sys2Proof.Machine.execStagedBankWrite r bank off v s
  | .read r count => Sys2Proof.Machine.execRead r count s
  | .hold r => Sys2Proof.Machine.execHold r s
  | .apply r => Sys2Proof.Machine.execApply r s
  | .discard r => Sys2Proof.Machine.execDiscard r s
  | .copy r src dst count => Sys2Proof.Machine.execCopy r src dst count s
  | .copyWord => Sys2Proof.Machine.execCopyWord s
  | .verify r bank => Sys2Proof.Machine.execVerify r bank s
  | .verifyWord => Sys2Proof.Machine.execVerifyWord s
  | .switch r bank => Sys2Proof.Machine.execSwitch r bank s
  | .go r playback => Sys2Proof.Machine.execGo r playback s
  | .back r playback => Sys2Proof.Machine.execBack r playback s
  | .goto r playback cue time => Sys2Proof.Machine.execGoto r playback cue time s
  | .pause r playback => Sys2Proof.Machine.execPause r playback s
  | .resume r playback => Sys2Proof.Machine.execResume r playback s
  | .release r playback time => Sys2Proof.Machine.execRelease r playback time s
  | .take r => Sys2Proof.Machine.execTake r s
  | .lock r => Sys2Proof.Machine.execLock r s
  | .unlock r => Sys2Proof.Machine.execUnlock r s
  | .restart r => Sys2Proof.Machine.execRestart r s
  | .fadeStep o => Sys2Proof.Machine.execFadeStep o s
  | .partDelayEnd p part o => Sys2Proof.Machine.execPartDelayEnd p part o s
  | .cueCompletion p o => Sys2Proof.Machine.execCueCompletion p o s
  | .releaseCompletion p o => Sys2Proof.Machine.execReleaseCompletion p o s
  | .followExpiry p o => Sys2Proof.Machine.execFollowExpiry p o s
  | .keyInputChange k pressed => Sys2Proof.Machine.execKeyInputChange k pressed s
  | .keyPressed k o => Sys2Proof.Machine.execKeyPressed k o s
  | .keyReleased k o => Sys2Proof.Machine.execKeyReleased k o s
  | .lineStep k => Sys2Proof.Machine.execLineStep k s
  | .periodTimerExpiry k => Sys2Proof.Machine.execPeriodTimerExpiry k s
  | .circuitComposition k => Sys2Proof.Machine.execCircuitComposition k s
  | .endOfFrame k => Sys2Proof.Machine.execEndOfFrame k s
  | .returnFrameStart x => Sys2Proof.Machine.execReturnFrameStart x s
  | .returnFrameEnd x => Sys2Proof.Machine.execReturnFrameEnd x s
  | .receivedByte x b => Sys2Proof.Machine.execReceivedByte x b s
  | .parityFault addr v => Sys2Proof.Machine.execParityFault addr v s

end Sys2Proof.Machine
end

