-- ==== Sys2Proof/Safety.lean ====
section
/-! DEFINITION. What claims speak of: when a request is taken and how it is answered, the states the spec's whole-machine
rules allow (one invariant for each block), and what ends a follow chain. -/

namespace Sys2Proof.Machine

/-! ## Requests as claims speak of them -/

/-- A request with link, unit and tag is taken when it is handed (R10, R11): the power-up check has ended, and a request
that is no broadcast finds a slot in its link's reply queue. -/
abbrev taken (s : State) (r : Req) : Prop :=
  s.phase = .running ∧ (r.unit = 0 ∨ (s.replies.get r.link).length < 4)

/-- A request that is taken and comes from the control owner (R20, R136). -/
abbrev takenFromOwner (s : State) (r : Req) : Prop := taken s r ∧ s.arb.owner = r.link

/-- A state with the reply to a request queued (R142): a broadcast has none. -/
def answered (s : State) (r : Req) (code : Byte) (res : Result) (data : List Byte) : State :=
  if r.unit = 0 then s else queueReply s r.link ⟨r.unit, r.tag, code, res, data⟩

/-- The command of the opcode table that a request with its parameters is (R135). -/
def Request.command (r : Req) : Request → Instr
  | .index a => .index r a
  | .write ws => .write r ws
  | .read n => .read r n
  | .hold => .hold r
  | .apply => .apply r
  | .discard => .discard r
  | .copy src dst n => .copy r src dst n
  | .verify b => .verify r b
  | .switch b => .switch r b
  | .go p => .go r p
  | .back p => .back r p
  | .goto p n t => .goto r p n t
  | .pause p => .pause r p
  | .resume p => .resume r p
  | .release p t => .release r p t
  | .take => .take r
  | .lock => .lock r
  | .unlock => .unlock r
  | .restart => .restart r

/-! ## Link receivers and the control arbiter -/

/-- R12: the acquisition count and the loss timer that each link state has. -/
abbrev linkStateOk (l : LinkRx) : Prop :=
  (l.state = .down → l.acq = 0 ∧ l.timer = none) ∧
  (l.state = .acquiring → l.acq ≤ 2 ∧ l.timer ≠ none) ∧
  (l.state = .live → l.acq = 0 ∧ l.timer ≠ none)

/-- R2, R4: what a reception state can hold. -/
def receptionOk : Reception → Bool
  | .hunt | .drain => true
  | .header got => got.length ≤ 2
  | .body _ len payload crcHi =>
    len ≤ 520 && payload.length ≤ len && (crcHi.isNone || payload.length == len)

/-- The nine counters are 16-bit counts (00_scope.md, Counters). -/
abbrev countersOk (c : LinkCounters) : Prop :=
  c.goodLevel ≤ 65535 ∧ c.goodRequest ≤ 65535 ∧ c.crc ≤ 65535 ∧ c.length ≤ 65535 ∧ c.gap ≤ 65535 ∧
  c.oversize ≤ 65535 ∧ c.unknownType ≤ 65535 ∧ c.filtered ≤ 65535 ∧ c.dropped ≤ 65535

/-- A table of 512 channels whose entries are at most `top`, in canonical form. -/
abbrev channelTableOk (top : Nat) (t : Table Nat) : Prop :=
  tableWf zeroLevel t ∧ ∀ e ∈ t, 1 ≤ e.1 ∧ e.1 ≤ 512 ∧ e.2 ≤ top

/-- A link receiver's state is one the rules allow. -/
abbrev linkOk (l : LinkRx) : Prop :=
  linkStateOk l ∧ receptionOk l.rx = true ∧ countersOk l.counters ∧ channelTableOk 255 l.buffer

/-- R25, R26, R29, R31: which console-source states go with which links being LIVE. NORMAL and HANDOVER have the console
present, OFF has the mode ISOLATED, and HOLD, LOSS_FADE and DARK have no eligible link LIVE. -/
def sourceOk (s : State) : Bool :=
  match s.arb.source with
  | .normal => s.working.sourceMode != .isolated && consolePresent s
  | .handover => s.working.sourceMode == .isolated || consolePresent s
  | .off => s.working.sourceMode == .isolated
  | .hold | .lossFade | .dark =>
    if s.working.sourceMode = .sole then !isLive s s.working.preferred else !isLive s .a && !isLive s .b

/-- The links and the arbiter: each link's state is allowed, the lock is set only while the owner link is LIVE (R23,
R25), SOLE has the preferred link as owner (R35, R36), in the other modes a LIVE standby goes with a LIVE owner (R25,
R26, R35), and the console source fits the links. In full reset the links and the arbiter are at their reset values (R18, R37; the
owner and the console source there by log 2). -/
abbrev ConsoleInv (s : State) : Prop :=
  (∀ x, linkOk (linkOf s x)) ∧
  channelTableOk 65535 s.arb.snapshot ∧ s.arb.elapsed ≤ 65535 ∧
  (s.arb.lock = true → isLive s s.arb.owner = true) ∧
  (s.phase ≠ .inReset → s.working.sourceMode = .sole → s.arb.owner = s.working.preferred) ∧
  (s.working.sourceMode ≠ .sole → isLive s (otherLink s.arb.owner) = true → isLive s s.arb.owner = true) ∧
  sourceOk s = true ∧
  (s.phase = .inReset → s.links = ⟨LinkRx.reset, LinkRx.reset⟩ ∧ s.arb = Arbiter.reset)

/-! ## Queues and return lines -/

/-- R137, R142, R143, R145: each link's index is a 24-bit address; the queues keep their depths; before the end of the power-up check no reply waits and the
transmitters are IDLE; after it an IDLE transmitter has nothing waiting that it may send. -/
abbrev QueueInv (s : State) : Prop :=
  (∀ x, s.tableIndex.get x < 0x1000000) ∧
  s.reports.length ≤ 32 ∧
  (∀ x, (s.replies.get x).length ≤ 4) ∧
  (s.phase ≠ .running → s.replies = ⟨[], []⟩ ∧ s.tx = ⟨none, none⟩) ∧
  (s.phase = .running → ∀ x, s.tx.get x = none → s.replies.get x = [] ∧ (s.arb.owner = x → s.reports = []))

/-! ## The retained store, the fault list, the slot and the shadow -/

/-- R155, R156, R158: a running COPY writes inside the banks, outside the active one, and reads mapped words; a running
VERIFY is of a staged bank. -/
def slotOk (s : State) : Bool :=
  match s.slot with
  | .empty => true
  | .copy src dst n done =>
    done < n && n ≤ 65536 && withinBanks dst n && allMapped src n && (s.safeMode || !touchesBank dst n s.active)
  | .verify b _ _ _ => s.safeMode || b != s.active

/-- R149: a live table word and its shadow word. A live word that holds a parity fault may differ from its shadow word. -/
abbrev shadowAgrees (s : State) : Prop :=
  ∀ off ∈ tableOffs, (liveStored s off).bad = true ∨ (liveStored s off).val = shadowWord s off

/-- Table memory: the store and the shadow in canonical form, listing only retained words (R163) and table offsets; the
fault list of at most 16 addresses, none twice, each still faulted (R165, R166); the slot as accepted; and the shadow
equal to the live tables while patch hold is off and the part is not in safe mode (R149). -/
abbrev StoreInv (s : State) : Prop :=
  tableWf defaultStored s.store ∧ (∀ e ∈ s.store, retained e.1 = true) ∧
  tableWf zeroWord s.shadow ∧ (∀ e ∈ s.shadow, 3 ≤ e.1 ∧ e.1 < 2627) ∧
  s.faultList.length ≤ 16 ∧ s.faultList.Nodup ∧ (∀ a ∈ s.faultList, (stored s a).bad = true) ∧
  slotOk s = true ∧
  (s.phase ≠ .running → s.slot = .empty ∧ s.patchHold = false) ∧
  (s.safeMode = true → s.patchHold = false) ∧
  (s.phase = .running → s.patchHold = false → s.safeMode = false → shadowAgrees s)

/-! ## Settings, working copies and output lines -/

/-- Whether a global setting's stored word is a value that its setting can hold: a write of it would leave it as it is. -/
def settingOk (s : State) (i : Nat) : Bool :=
  (stored s (globalAddr i)).bad || globalCheck i (stored s (globalAddr i)).val == some (stored s (globalAddr i)).val

/-- R123, R163: a global setting's working copy holds what its retained word holds, unless the word holds a fault. -/
def copyOk (s : State) (i : Nat) : Bool :=
  (stored s (globalAddr i)).bad || loadSetting s.working i (stored s (globalAddr i)).val == s.working

/-- R53: the three playback settings with a range. -/
def playbackSettingOk (s : State) (p : PlaybackNo) : Bool :=
  ((stored s (playbackAddr p 0)).bad || (stored s (playbackAddr p 0)).val.toNat ≤ 16) &&
  ((stored s (playbackAddr p 1)).bad || (stored s (playbackAddr p 1)).val.toNat ≤ 3) &&
  ((stored s (playbackAddr p 2)).bad || (stored s (playbackAddr p 2)).val.toNat ≤ 255)

/-- R14, R19, R76, R139: the working copies hold values of their settings. -/
abbrev workingOk (w : Working) : Prop :=
  w.handoverTime ≤ 1000 ∧ 10 ≤ w.lossTime ∧ w.lossTime ≤ 1000 ∧ w.lossFadeDelay ≤ 65535 ∧ w.lossFadeTime ≤ 65535 ∧
  1 ≤ w.unit ∧ w.unit ≤ 15 ∧ 1 ≤ w.panelPlayback ∧ w.panelPlayback ≤ 16 ∧
  ∀ l ∈ w.lines.toList, 1 ≤ l.count ∧ l.count ≤ 256 ∧ 1 ≤ l.period ∧ l.period ≤ 10

/-- How many bytes a level takes in a mode (R130). -/
def levelBytes : LineMode → Nat
  | .coarse => 1
  | .fine => 2

/-- R124 to R132: a line's frame carries its latched count of circuits, each in its latched mode. -/
abbrev lineOk (l : Line) : Prop :=
  1 ≤ l.count ∧ l.count ≤ 256 ∧ 1 ≤ l.period ∧ l.period ≤ 10 ∧ l.late ≤ 65535 ∧
  (inFrame l = true → l.next ≤ l.count ∧ l.sent.length = 3 + l.next * levelBytes l.mode)

/-- The settings, their working copies, and the lines that act on them; the lines are SILENT until the power-up check has
ended (R134). The previous outputs are of circuits 1 to 1,024 (R128). -/
abbrev SettingsInv (s : State) : Prop :=
  workingOk s.working ∧
  (∀ i < 28, settingOk s i = true) ∧
  (s.phase ≠ .inReset → ∀ i < 28, copyOk s i = true) ∧
  (∀ p : PlaybackNo, playbackSettingOk s p = true) ∧
  (∀ k : LineNo, lineOk (lineAt s k)) ∧
  (s.phase ≠ .running → ∀ k : LineNo, (lineAt s k).tx = .silent) ∧
  tableWf zeroLevel s.prevOut ∧ (∀ e ∈ s.prevOut, 1 ≤ e.1 ∧ e.1 ≤ 1024)

/-! ## Playbacks -/

/-- R57: an entry at rest is above 0, and a fading entry's direction is its part's. -/
def entryOk (e : Entry) : Bool :=
  match e.fade with
  | none => 0 < e.level
  | some f =>
    match f.part with
    | .up => f.start < f.target
    | .down => f.target < f.start

/-- R56, R57, R62, R70: a playback's fields fit its state. -/
abbrev playbackOk (pb : Playback) : Prop :=
  pb.list.Pairwise (fun e f => e.channel < f.channel) ∧ (∀ e ∈ pb.list, entryOk e = true) ∧
  (pb.cue = none ↔ pb.state = .unbound ∨ pb.state = .ready) ∧
  (pb.cue = none → pb.list = []) ∧
  (pb.state = .atCue → ∀ e ∈ pb.list, e.fade = none) ∧
  (pb.follow ≠ none → pb.state = .atCue ∧ pb.follow ≠ some 0) ∧
  (pb.state = .fading ∨ pb.state = .paused ∨ pb.state = .releasing → partsDone pb = false)

/-- The fade engine: each playback's fields fit its state, the take order holds each playback whose level list is
nonempty exactly once and no other (R59), and no follow chain has been left without an end (log 5). -/
abbrev PlaybackInv (s : State) : Prop :=
  (∀ p : PlaybackNo, playbackOk (playbackAt s p)) ∧
  s.takeOrder.Nodup ∧ (∀ p : PlaybackNo, p ∈ s.takeOrder ↔ (playbackAt s p).list ≠ []) ∧
  s.followStuck = false

/-! ## Follow chains -/

/-- No cue that playback `p` can take, and not its current one, follows at once: each follow time is 1 step or more, so
that no chain of follows arises within one event (R65). -/
abbrev noFollowAtOnce (s : State) : Prop :=
  (∀ p : PlaybackNo, (playbackAt s p).cue.bind (·.follow) ≠ some 0) ∧
  ∀ l ∈ s.stackIndex.toList, ∀ e ∈ l, (cueData s e.position).follow ≠ some 0

/-- The state after the set-up of a cue on playback `p`, before any completion that follows at once (R60 to R63, R59):
`e` is the cue, `d` its record and look as read, and `by_` what took it. -/
def afterSetUp (s : State) (p : PlaybackNo) (e : IndexEntry) (d : CueData) (by_ : TakenBy) : State :=
  let pb := setUp (playbackAt s p) d e by_
  { setPlayback s p pb with takeOrder := retake s.takeOrder p pb.list }

/-- The state after a cue is taken that does not follow at once: set up, and completed where both parts are DONE at the
set-up (R62, R64). -/
def afterCue (s : State) (p : PlaybackNo) (e : IndexEntry) (d : CueData) (by_ : TakenBy) : State :=
  let t := afterSetUp s p e d by_
  if partsDone (playbackAt t p) then complete t p else t

/-- What a follow expiry or the GO it takes leaves (R65, R46, R48, R74), from a state `u` in which playback `p` is AT_CUE with
no follow: a faulted word offered, nothing without a next cue, or what `settles` says of the next cue's set-up. -/
def followTakes (settles : State → State → Prop) (p : PlaybackNo) (u v : State) : Prop :=
  (boundStack u p = none ∧ v = offerFault u (playbackAddr p 0)) ∨
  ∃ st c, boundStack u p = some st ∧ (playbackAt u p).cue = some c ∧
    ((nextCue u st.toNat c.number c.position = .found none ∧ v = u) ∨
      (∃ a, nextCue u st.toNat c.number c.position = .fault a ∧ v = offerFault u a) ∨
      ∃ e, nextCue u st.toNat c.number c.position = .found (some e) ∧
        ((∃ bad, readCue u e.position = .error bad ∧ v = offerFaults u bad) ∨
          ∃ d, readCue u e.position = .ok d ∧ settles (afterSetUp u p e d .cue) v))

/-- What a playback in FADING comes to within the event, by `n` completions at most (R62, R65): it fades on while a part is not
DONE; otherwise its cue completes, and a follow of time 0 expires within the completion. -/
def cueSettles (p : PlaybackNo) : Nat → State → State → Prop
  | 0, u, v => partsDone (playbackAt u p) = false ∧ v = u
  | n + 1, u, v =>
    if partsDone (playbackAt u p) = false then v = u
    else if (playbackAt (complete u p) p).follow ≠ some 0 then v = complete u p
    else followTakes (cueSettles p n) p (clearFollow (complete u p) p) v

/-- As many completions as three rounds of the 960 cues that a bank can hold: a chain of follows that ends has no more
(log 5). -/
def chainCues : Nat := 2880

/-! ## Step expiries of the fade engine -/

/-- A key whose recognition at the next step expiry gives a command (R75, R76). -/
def keyActs (s : State) (k : Key) : Bool := pressDue s k && s.working.panelEnable && s.phase == .running

/-- A playback that neither completes nor has its follow expire at the next step expiry (R64, R65, R72). -/
def staysAtStep (pb : Playback) : Bool :=
  match pb.state with
  | .fading | .releasing => !partsDone (advanceParts pb)
  | .atCue => match pb.follow with
    | none => true
    | some n => 1 < n
  | .unbound | .ready | .paused => true

/-- Such a playback after the step expiry: its parts advanced, or its follow counted. -/
def steppedPlayback (pb : Playback) : Playback :=
  match pb.state with
  | .fading | .releasing => advanceParts pb
  | .atCue => { pb with follow := pb.follow.map (· - 1) }
  | .unbound | .ready | .paused => pb

/-- A playback at a step expiry after its advance and before its completion, its release completion or its follow (R64, R65):
a follow that expires is absent. -/
def advancedPlayback (pb : Playback) : Playback :=
  if pb.state = .atCue ∧ staysAtStep pb = false then { pb with follow := none } else steppedPlayback pb

/-- What playback `p`, which stood as `old` before the step expiry, makes of the state `u` in its turn: nothing more, its
completion, its release completion, or its follow (R64, R65, R72). -/
def stepTakes (old : Playback) (p : PlaybackNo) (u v : State) : Prop :=
  if staysAtStep old then v = u
  else match old.state with
    | .fading => cueSettles p chainCues u v
    | .atCue => followTakes (cueSettles p chainCues) p u v
    | .releasing =>
      v = { setPlayback u p { playbackAt u p with state := .ready, cue := none, list := [] } with
        takeOrder := u.takeOrder.filter (· ≠ p) }
    | .unbound | .ready | .paused => v = u

/-- A key after a step expiry of the fade engine (R75). -/
def steppedKey (ks : KeyState) : KeyState :=
  { ks with stable := min 2 (ks.stable + 1), pressed := if ks.stable = 1 then ks.input else ks.pressed }

/-- The panel after a step expiry of the fade engine. -/
def steppedPanel (pn : Panel) : Panel := ⟨steppedKey pn.go, steppedKey pn.back, steppedKey pn.pause⟩

/-! ## Entries of a level list -/

/-- The entry of a level list for a channel. -/
def entryFor (l : List Entry) (ch : Nat) : Option Entry := l.find? (·.channel == ch)

end Sys2Proof.Machine
end

