-- ==== Sys2Proof/Certificates/Slice0/Obligations.lean ====
section
/-! DEFINITION. The statements for the provers: what the commands do, what they leave as it was, and what every step keeps.
Each statement of a command's result has as its conclusion that `exec` answers that next state. -/

open Sys2Proof Sys2Proof.Machine

/-! ## The step, full reset and the power-up check -/

/-- A step runs the command at the front of the queue, on the state with the queue's rest. -/
def Obligations.StepRunsFrontCommand : Prop :=
  ∀ (c : Instr) (rest : List Instr) (s : State),
    s.pending = c :: rest → step s = exec c { s with pending := rest }

/-- The state of full reset is one that the invariants of all blocks allow. -/
def Obligations.ResetIsAllowed : Prop :=
  ConsoleInv State.reset ∧ QueueInv State.reset ∧ StoreInv State.reset ∧ SettingsInv State.reset ∧
    PlaybackInv State.reset

/-- What full reset leaves of every block, where the spec states it: the link receivers (R8, R18), the control arbiter
(R37), the request engine (R147), table memory (R153 to R155, R165), the fade engine and the stage panel (R59, R75, R77), the
composer (R128) and the output lines (R134). The retained store is kept. -/
def Obligations.FullResetLeaves : Prop :=
  ∀ s : State, ∃ t, exec .fullReset s = .next t ∧ t.phase = .inReset ∧
    (∀ x, (linkOf t x).rx = .hunt ∧ (linkOf t x).state = .down ∧ (linkOf t x).acq = 0 ∧ (linkOf t x).timer = none ∧
      (linkOf t x).counters = ⟨0, 0, 0, 0, 0, 0, 0, 0, 0⟩ ∧ (∀ ch, bufferLevel t x ch = 0) ∧
      t.tableIndex.get x = 0 ∧ t.replies.get x = [] ∧ t.tx.get x = none) ∧
    t.arb.lock = false ∧ t.arb.holdoff = false ∧ t.arb.elapsed = 0 ∧
    (∀ ch, snapshotLevel t ch = 0 ∧ contribution t ch = 0) ∧
    (∀ p, (playbackAt t p).cue = none ∧ (playbackAt t p).list = [] ∧ (playbackAt t p).follow = none ∧
      (playbackAt t p).profile = .linear ∧ (playbackAt t p).up = ⟨.done, 0, 0, 0⟩ ∧
      (playbackAt t p).down = ⟨.done, 0, 0, 0⟩) ∧ t.takeOrder = [] ∧
    t.reports = [] ∧ t.dropMark = false ∧ t.slot = .empty ∧ t.lastVerify = .none ∧ t.lastVerifyAddr = 0 ∧
    (∀ b, t.verified.get b = false) ∧ t.faultList = [] ∧ t.faultOverflow = false ∧ t.patchHold = false ∧
    (∀ k, (lineAt t k).tx = .silent ∧ (lineAt t k).timer = 0 ∧ (lineAt t k).late = 0) ∧
    (∀ c, previousOutput t c = 0) ∧
    (∀ k, keyState t.panel k = { input := (keyState s.panel k).input, pressed := false, stable := 0 }) ∧
    (∀ a, stored t a = stored s a)

/-- R167: the repair of the settings and curves, the working copies loaded from it, and (where no link is LIVE) the
arbiter and the playbacks as R37 and R77 state. Words that the repair does not read are kept. The volatile copy of the
active-bank selection takes the repaired word already here, the model's choice (log 9). -/
def Obligations.ResetReleaseRepairs : Prop :=
  ∀ s : State, s.phase = .inReset → ∃ t, exec .resetRelease s = .next t ∧ t.phase = .checking ∧
    (∀ a ∈ settingAddrs, stored t a = if (stored s a).bad then ⟨defaultWord a, false⟩ else stored s a) ∧
    (∀ g, 1 ≤ g → g ≤ 7 →
      ((∃ i < 33, (stored s (curveAddr g i)).bad = true) →
        ∀ i < 33, stored t (curveAddr g i) = ⟨wordOf (min 65535 (2048 * i)), false⟩) ∧
      ((∀ i < 33, (stored s (curveAddr g i)).bad = false) →
        ∀ i < 33, stored t (curveAddr g i) = stored s (curveAddr g i))) ∧
    (∀ b off, off < bankWords → stored t (bankBase b + off) = stored s (bankBase b + off)) ∧
    (∀ i < 28, loadSetting t.working i (stored t (globalAddr i)).val = t.working) ∧
    t.active = bankOfWord (stored t selectionAddr).val ∧ t.faultList = [] ∧ t.faultOverflow = false ∧
    (∀ p, playbackAt t p = clearedPlayback ((stored t (playbackAddr p 0)).val != 0)) ∧ t.takeOrder = [] ∧
    t = { s with phase := .checking, arb := t.arb, working := t.working, store := t.store, faultList := [],
                 faultOverflow := false, active := t.active, playbacks := t.playbacks, takeOrder := [],
                 reports := t.reports, dropMark := t.dropMark, tx := t.tx, replies := t.replies } ∧
    ((∀ x, isLive s x = false) →
      t.arb = { owner := t.working.preferred, lock := false, holdoff := false,
                source := if t.working.sourceMode = .isolated then .off else .hold, snapshot := [], elapsed := 0 })

/-- R44, R168, R169: the outcome of the power-up check, the shadow, the stack index (empty for SAFE, and otherwise each stack's
loaded records of the active bank in rising cue number), patch hold off, the STARTUP report after the FAULT reports of the
banks that a parity fault fails (shown where the return lines are IDLE without a reply, as they are during the check, and the
queue has room), and the lines whose enable is on. The candidate is the volatile copy that the repair loaded, and the banks
are examined as they stand at the end of the check, the model's choice (log 9). -/
def Obligations.PowerUpCheckDecides : Prop :=
  ∀ s : State, s.phase = .checking →
    let met (u : State) (b : Bank) : State :=
      match examine s b with
      | .fault off => offerFault u (bankBase b + off)
      | .pass | .fail => u
    ∃ t, exec .powerUpCheckEnd s = .next t ∧ t.phase = .running ∧
    let started (u : State) (res : StartResult) : Prop :=
      s.tx = ⟨none, none⟩ → s.replies = ⟨[], []⟩ → u.reports.length < 32 →
        ∃ r rest, u.reports ++ [⟨.startup res, u.dropMark⟩] = r :: rest ∧ t.reports = rest ∧ t.dropMark = false ∧
          t.tx = s.tx.put s.arb.owner (some (linkFrame 0x40 (reportPayload s.working.unit r))) ∧ t.replies = s.replies
    let live (off : Nat) : Word := (stored t (bankBase t.active + off)).val
    (examine s s.active = .pass →
      t.safeMode = false ∧ t.active = s.active ∧ stored t selectionAddr = stored s selectionAddr ∧ started s .normal) ∧
    (examine s s.active ≠ .pass → examine s (otherBank s.active) = .pass →
      t.safeMode = false ∧ t.active = otherBank s.active ∧
      stored t selectionAddr = ⟨wordOf (bankCode (otherBank s.active)), false⟩ ∧ started (met s s.active) .fallback) ∧
    (examine s s.active ≠ .pass → examine s (otherBank s.active) ≠ .pass →
      t.safeMode = true ∧ stored t selectionAddr = stored s selectionAddr ∧ (∀ st, stackList t st = []) ∧
      started (met (met s s.active) (otherBank s.active)) .safe) ∧
    (∀ a, a ≠ selectionAddr → stored t a = stored s a) ∧ t.patchHold = false ∧
    (t.safeMode = false → ∀ off, 3 ≤ off → off < 2627 → shadowWord t off = (liveStored t off).val) ∧
    (t.safeMode = false → ∀ st, 1 ≤ st → st ≤ 16 →
      (stackList t st).Pairwise (fun e f => e.cue < f.cue) ∧
      ∀ e, e ∈ stackList t st ↔ e.position < (live 2).toNat ∧ (live (2627 + 12 * e.position)).toNat = st ∧
        (live (2628 + 12 * e.position)).toNat = e.cue) ∧
    (∀ k, (lineAt s k).tx = .silent →
      (lineAt t k).tx = (if (lineSettings s k).enable then .waiting else .silent) ∧
      ((lineSettings s k).enable = true → (lineAt t k).timer = 0)) ∧
    t = { s with phase := .running, safeMode := t.safeMode, active := t.active, store := t.store, shadow := t.shadow,
                 patchHold := false, stackIndex := t.stackIndex, faultList := t.faultList,
                 faultOverflow := t.faultOverflow, reports := t.reports, dropMark := t.dropMark, tx := t.tx,
                 replies := t.replies, lines := t.lines }

/-- R163, R165: a parity fault changes the one word, which then yields no value. The value stored with it is the command's
(log 10), and at an address without parity the command changes nothing (log 11), both the model's choices. A reader that meets
the fault offers the address (each statement of a reader says which): an address that is listed changes nothing; one that is
not listed is appended with a FAULT report while fewer than 16 stand, and at 16 only the overflow flag is set. Several are
offered in turn. What an offered report does is ReturnLinesSendFrames. -/
def Obligations.ParityFaultHitsOneWord : Prop :=
  ∀ s : State,
    (∀ (addr : Addr) (v : Word),
      (retained addr.toNat = true → ∃ t, exec (.parityFault addr v) s = .next t ∧ t = { s with store := t.store } ∧
        stored t addr.toNat = ⟨v, true⟩ ∧ readWord t addr.toNat = none ∧
        ∀ a, a ≠ addr.toNat → stored t a = stored s a) ∧
      (retained addr.toNat = false → exec (.parityFault addr v) s = .next s)) ∧
    (∀ a, a ∈ s.faultList → offerFault s a = s) ∧
    (∀ a, a ∉ s.faultList → s.faultList.length < 16 →
      offerFault s a = offerReport { s with faultList := s.faultList ++ [a] } (.fault a)) ∧
    (∀ a, a ∉ s.faultList → 16 ≤ s.faultList.length → offerFault s a = { s with faultOverflow := true }) ∧
    offerFaults s [] = s ∧ ∀ a as, offerFaults s (a :: as) = offerFaults (offerFault s a) as

/-- R146, R78: what RESTART from the control owner clears, and what it leaves as it stood. -/
def Obligations.RestartClears : Prop :=
  ∀ (s : State) (r : Req), takenFromOwner s r → ∃ t, exec (.restart r) s = .next (answered t r 0x50 .ok []) ∧
    (∀ p, boundStack s p ≠ none →
      playbackAt t p = clearedPlayback (boundStack s p != some 0)) ∧
    t.takeOrder = [] ∧ t.patchHold = false ∧ t.slot = .empty ∧ t.replies = ⟨[], []⟩ ∧ t.dropMark = false ∧
    t.faultList = [] ∧ t.faultOverflow = false ∧
    (s.safeMode = false → ∀ off, 3 ≤ off → off < 2627 → shadowWord t off = (liveStored s off).val) ∧
    (s.slot = .empty → t.reports = [] ∧ t.tx = s.tx ∧ t.lastVerify = s.lastVerify ∧
      t.lastVerifyAddr = s.lastVerifyAddr ∧ t.verified = s.verified) ∧
    (∀ src dst n done, s.slot = .copy src dst n done → s.tx.get s.arb.owner ≠ none →
      t.reports = [⟨.opDone .copy .aborted 0, false⟩] ∧ t.tx = s.tx ∧ t.verified = s.verified ∧
      t.lastVerify = s.lastVerify) ∧
    (∀ b pass stale reads, s.slot = .verify b pass stale reads →
      t.lastVerify = .aborted ∧ t.lastVerifyAddr = 0 ∧ t.verified = s.verified.put b false ∧
      (s.tx.get s.arb.owner ≠ none → t.reports = [⟨.opDone .verify .aborted 0, false⟩] ∧ t.tx = s.tx)) ∧
    t.links = s.links ∧ t.arb = s.arb ∧ t.lines = s.lines ∧ t.prevOut = s.prevOut ∧ t.tableIndex = s.tableIndex ∧
    t.store = s.store ∧ t.working = s.working ∧ t.panel = s.panel ∧ t.stackIndex = s.stackIndex ∧
    t.active = s.active ∧ t.safeMode = s.safeMode ∧ t.phase = s.phase

/-! ## Console links -/

/-- R2, R4, R13, R17: a byte that does not complete a frame, taken according to the reception state. A payload length above 520
discards the frame, counts it once and enters DRAIN, and a link in ACQUIRING goes back to an acquisition count of 0; that
byte comes as RECEIVED_BYTE or as OVERSIZE_FRAME (log 6). -/
def Obligations.ByteIsTaken : Prop :=
  ∀ (s : State) (x : Link) (b : Byte), s.phase ≠ .inReset → s.followStuck = false →
    let l := linkOf s x
    (l.rx = .hunt → exec (.receivedByte x b) s =
      .next (if b = 0xE7 then setLink s x { l with rx := .header [] } else s)) ∧
    (l.rx = .drain → exec (.receivedByte x b) s = .next s) ∧
    (l.rx = .header [] → exec (.receivedByte x b) s = .next (setLink s x { l with rx := .header [b] })) ∧
    (∀ typ, l.rx = .header [typ] →
      exec (.receivedByte x b) s = .next (setLink s x { l with rx := .header [typ, b] })) ∧
    (∀ typ hi, l.rx = .header [typ, hi] → hi.toNat * 256 + b.toNat ≤ 520 →
      exec (.receivedByte x b) s = .next (setLink s x { l with rx := .body typ (hi.toNat * 256 + b.toNat) [] none })) ∧
    (∀ typ len payload hi, l.rx = .body typ len payload hi → payload.length < len →
      exec (.receivedByte x b) s = .next (setLink s x { l with rx := .body typ len (payload ++ [b]) none })) ∧
    (∀ typ len payload, l.rx = .body typ len payload none → len ≤ payload.length →
      exec (.receivedByte x b) s = .next (setLink s x { l with rx := .body typ len payload (some b) })) ∧
    (∀ typ hi, l.rx = .header [typ, hi] → 520 < hi.toNat * 256 + b.toNat →
      ∀ i ∈ [Instr.receivedByte x b, Instr.oversizeFrame x b],
        exec i s = .next (setLink s x { l with
          rx := .drain, counters := { l.counters with oversize := min 65535 (l.counters.oversize + 1) },
          acq := if l.state = .acquiring then 0 else l.acq }))

/-- R3, R4, R13, R17: more than 100 µs of idle time inside a frame is a gap error, and ends DRAIN. In the reception states in
which the event is not due its command changes nothing, the model's choice (log 6). -/
def Obligations.IdleTimeEndsFrameOrDrain : Prop :=
  ∀ (s : State) (x : Link),
    let l := linkOf s x
    (((∃ got, l.rx = .header got) ∨ ∃ typ len payload hi, l.rx = .body typ len payload hi) →
      exec (.gapError x) s = .next (setLink s x { l with
        rx := .hunt, counters := { l.counters with gap := min 65535 (l.counters.gap + 1) },
        acq := if l.state = .acquiring then 0 else l.acq }) ∧
      exec (.drainEnd x) s = .next s) ∧
    (l.rx = .drain → exec (.gapError x) s = .next s ∧ exec (.drainEnd x) s = .next (setLink s x { l with rx := .hunt })) ∧
    (l.rx = .hunt → exec (.gapError x) s = .next s ∧ exec (.drainEnd x) s = .next s)

/-- R5, R6, R13: a complete frame that fails a check is discarded with the one counter of the first failing check, and
nothing else changes but a link in ACQUIRING going back to an acquisition count of 0. The last byte comes as RECEIVED_BYTE or
as FRAME_COMPLETE (log 6). -/
def Obligations.BadFrameIsDiscarded : Prop :=
  ∀ (s : State) (x : Link) (typ : Byte) (payload : List Byte) (hi lo : Byte), s.phase ≠ .inReset →
    s.followStuck = false → (linkOf s x).rx = .body typ payload.length payload (some hi) →
    let l := linkOf s x
    let good := crc16 (typ :: wordBytes (wordOf payload.length) ++ payload) = wordOfBytes hi lo
    let discarded (c : LinkCounters) : State :=
      setLink s x { l with rx := .hunt, counters := c, acq := if l.state = .acquiring then 0 else l.acq }
    ∀ i ∈ [Instr.receivedByte x lo, Instr.frameComplete x lo],
      (¬ good → exec i s = .next (discarded { l.counters with crc := min 65535 (l.counters.crc + 1) })) ∧
      (good → typ ≠ 0x10 → typ ≠ 0x20 →
        exec i s = .next (discarded { l.counters with unknownType := min 65535 (l.counters.unknownType + 1) })) ∧
      (good → typ = 0x10 → payload.length < 3 →
        exec i s = .next (discarded { l.counters with length := min 65535 (l.counters.length + 1) })) ∧
      (∀ b1 b0 levels, good → typ = 0x10 → payload = b1 :: b0 :: levels → levels ≠ [] →
        (wordOfBytes b1 b0 = 0 ∨ 513 < (wordOfBytes b1 b0).toNat + levels.length) →
        exec i s = .next (discarded { l.counters with length := min 65535 (l.counters.length + 1) })) ∧
      (good → typ = 0x20 → payload.length < 3 →
        exec i s = .next (discarded { l.counters with length := min 65535 (l.counters.length + 1) }))

/-- R7, R13, R16, R24, R26, R27, R31: a good LEVEL frame writes its levels and keeps the other entries, counts, and acts on the
link's state. Where it does not make the link LIVE, only the link and the holdoff change. Where it does, LINK_LIVE is offered
and the arbiter acts: a return, a reclaim, in MERGE a trigger, or nothing (the reports are shown where both return lines are
sending and the queue has room). That the owner link's own change into LIVE is no return outside HOLD, LOSS_FADE and DARK is the
model's reading of R26 and R37 (log 25). The snapshot is the console contribution just before the link became LIVE, with the
frame's levels in the buffer (log 17). The last byte comes as RECEIVED_BYTE or as FRAME_COMPLETE (log 6). -/
def Obligations.LevelFrameIsAccepted : Prop :=
  ∀ (s : State) (x : Link) (b1 b0 : Byte) (levels : List Byte) (hi lo : Byte), s.phase ≠ .inReset →
    s.followStuck = false → (linkOf s x).rx = .body 0x10 (levels.length + 2) (b1 :: b0 :: levels) (some hi) →
    crc16 (0x10 :: wordBytes (wordOf (levels.length + 2)) ++ b1 :: b0 :: levels) = wordOfBytes hi lo →
    levels ≠ [] → 1 ≤ (wordOfBytes b1 b0).toNat → (wordOfBytes b1 b0).toNat + levels.length ≤ 513 →
    let l := linkOf s x
    let w := s.working
    let b := (wordOfBytes b1 b0).toNat
    ∃ t, (∀ i ∈ [Instr.receivedByte x lo, Instr.frameComplete x lo], exec i s = .next t) ∧
      (linkOf t x).rx = .hunt ∧
      (linkOf t x).counters = { l.counters with goodLevel := min 65535 (l.counters.goodLevel + 1) } ∧
      (∀ ch, bufferLevel t x ch =
        if b ≤ ch ∧ ch < b + levels.length then (levels.getD (ch - b) 0).toNat else bufferLevel s x ch) ∧
      (linkOf t x).timer = some 0 ∧
      (l.state = .down → (linkOf t x).state = .acquiring ∧ (linkOf t x).acq = 1) ∧
      (l.state = .acquiring → l.acq < 2 → (linkOf t x).state = .acquiring ∧ (linkOf t x).acq = l.acq + 1) ∧
      (l.state = .acquiring → 2 ≤ l.acq → (linkOf t x).state = .live ∧ (linkOf t x).acq = 0) ∧
      (l.state = .live → (linkOf t x).state = .live ∧ (linkOf t x).acq = l.acq) ∧
      linkOf t (otherLink x) = linkOf s (otherLink x) ∧
      t = { s with links := t.links, arb := t.arb, reports := t.reports, dropMark := t.dropMark, tx := t.tx,
                   replies := t.replies } ∧
      let cleared : Arbiter := { s.arb with holdoff := if s.arb.owner = x then false else s.arb.holdoff }
      (l.state ≠ .acquiring ∨ l.acq < 2 → t = { s with links := t.links, arb := cleared }) ∧
      (l.state = .acquiring → 2 ≤ l.acq →
        let before := setLink s x { l with buffer := (linkOf t x).buffer }
        let returns_ := (w.sourceMode ≠ .sole ∨ x = w.preferred) ∧
          ((s.arb.source = .hold ∨ s.arb.source = .lossFade ∨ s.arb.source = .dark) ∨
            (s.arb.owner ≠ x ∧ (linkOf s s.arb.owner).state ≠ .live))
        let reclaims_ := w.reclaim = true ∧ w.sourceMode ≠ .sole ∧ x = w.preferred ∧ s.arb.owner ≠ x ∧ s.arb.lock = false
        let triggered (a : Arbiter) : Prop :=
          t.arb = { a with
            source := if w.handoverTime ≠ 0 then .handover else if w.sourceMode = .isolated then .off else .normal,
            snapshot := t.arb.snapshot, elapsed := 0 } ∧
          ∀ ch, 1 ≤ ch → ch ≤ 512 → snapshotLevel t ch = contribution before ch
        let reported (more : List ReportKind) : Prop :=
          (∀ y, s.tx.get y ≠ none) → s.reports.length + 2 ≤ 32 →
            t.reports = s.reports ++ ⟨.linkLive x, s.dropMark⟩ :: more.map (⟨·, false⟩) ∧ t.dropMark = false ∧
            t.tx = s.tx ∧ t.replies = s.replies
        let changed : Arbiter := { s.arb with owner := x, lock := false, holdoff := true }
        (returns_ → triggered (if s.arb.owner = x then cleared else changed) ∧ reported [.handover s.arb.owner x .ret]) ∧
        (¬ returns_ → reclaims_ → triggered changed ∧ reported [.handover s.arb.owner x .reclaim]) ∧
        (¬ returns_ → ¬ reclaims_ → reported [] ∧
          (w.sourceMode = .merge → triggered cleared) ∧ (w.sourceMode ≠ .merge → t.arb = cleared)))

/-- R9, R10, R11, R135: a good REQUEST frame is counted. For this unit, or a broadcast, it has the effect of the request it
spells, at its acceptance, on the state with the receiver back in HUNT and the frame counted. Where its code and parameter
bytes spell no request it is dropped for want of a slot, or refused with BAD_REQUEST (the data of the reply by log 14, for an
APPLY's code left open by log 4). For another unit it is also counted as filtered; during the power-up check it is
discarded before the filter; nothing else changes. The last byte comes as RECEIVED_BYTE or as FRAME_COMPLETE (log 6). -/
def Obligations.RequestFrameIsFilteredAndRuns : Prop :=
  ∀ (s : State) (x : Link) (unit tag code : Byte) (params : List Byte) (hi lo : Byte), s.followStuck = false →
    (linkOf s x).rx = .body 0x20 (params.length + 3) (unit :: tag :: code :: params) (some hi) →
    crc16 (0x20 :: wordBytes (wordOf (params.length + 3)) ++ unit :: tag :: code :: params) = wordOfBytes hi lo →
    let l := linkOf s x
    let counted := { l.counters with goodRequest := min 65535 (l.counters.goodRequest + 1) }
    let s' := setLink s x { l with rx := .hunt, counters := counted }
    ∀ i ∈ [Instr.receivedByte x lo, Instr.frameComplete x lo],
      (∀ q, s.phase = .running → (unit = 0 ∨ unit.toNat = s.working.unit) → parseRequest code params = some q →
        exec i s = exec (q.command ⟨x, unit, tag⟩) s') ∧
      (s.phase = .running → (unit = 0 ∨ unit.toNat = s.working.unit) → parseRequest code params = none →
        (unit ≠ 0 → 4 ≤ (s.replies.get x).length → exec i s = .next (setLink s x { l with
          rx := .hunt, counters := { counted with dropped := min 65535 (l.counters.dropped + 1) } })) ∧
        (unit = 0 ∨ (s.replies.get x).length < 4 → ∃ data n,
          exec i s = .next (answered { s' with freeDraws := n } ⟨x, unit, tag⟩ code .badRequest data) ∧
          (code = 0x02 ∨ code = 0x15 → data = [0]) ∧ (code ≠ 0x02 → code ≠ 0x11 → code ≠ 0x15 → data = []) ∧
          (code ≠ 0x11 → n = s.freeDraws))) ∧
      (s.phase = .running → unit ≠ 0 → unit.toNat ≠ s.working.unit →
        exec i s = .next (setLink s x { l with
          rx := .hunt, counters := { counted with filtered := min 65535 (l.counters.filtered + 1) } })) ∧
      (s.phase = .checking → exec i s = .next s')

/-- R14, R15, R16, R25, R31, R33: a stopped loss timer does nothing; a running one counts, and where the count reaches the
loss time in force the link goes DOWN and LINK_DOWN is offered. LOSS_TIMER_EXPIRY is the step expiry at which that happens,
and nothing at any other (log 6). At the loss of the owner link the lock is cleared; in the modes but SOLE a LIVE standby
becomes the owner and a handover starts; otherwise the console source enters HOLD. At the loss of the standby MERGE makes a
trigger, and the other modes do nothing. The snapshot is the console contribution just before the loss (log 17). The reports
are shown where both return lines are sending and the queue has room. -/
def Obligations.LossTimerCountsAndExpires : Prop :=
  ∀ (s : State) (x : Link),
    let l := linkOf s x
    let w := s.working
    (l.timer = none → exec (.lossTimerStep x) s = .next s ∧ exec (.lossTimerExpiry x) s = .next s) ∧
    (∀ n, l.timer = some n → n + 1 < w.lossTime →
      exec (.lossTimerStep x) s = .next (setLink s x { l with timer := some (n + 1) }) ∧
      exec (.lossTimerExpiry x) s = .next s) ∧
    (∀ n, l.timer = some n → w.lossTime ≤ n + 1 → ∃ t,
      exec (.lossTimerStep x) s = .next t ∧ exec (.lossTimerExpiry x) s = .next t ∧
      linkOf t x = { l with state := .down, acq := 0, timer := none } ∧
      linkOf t (otherLink x) = linkOf s (otherLink x) ∧
      t = { s with links := t.links, arb := t.arb, reports := t.reports, dropMark := t.dropMark, tx := t.tx,
                   replies := t.replies } ∧
      let otherLive := (linkOf s (otherLink x)).state = .live
      let waits := s.arb.source = .hold ∨ s.arb.source = .lossFade ∨ s.arb.source = .dark
      let entered (src : SourceState) (a : Arbiter) : Prop :=
        t.arb = { a with source := src, snapshot := t.arb.snapshot, elapsed := 0 } ∧
        ∀ ch, 1 ≤ ch → ch ≤ 512 → snapshotLevel t ch = contribution s ch
      let handoverTo : SourceState :=
        if w.handoverTime ≠ 0 then .handover else if w.sourceMode = .isolated then .off else .normal
      let reported (more : List ReportKind) : Prop :=
        (∀ y, s.tx.get y ≠ none) → s.reports.length + 2 ≤ 32 →
          t.reports = s.reports ++ ⟨.linkDown x, s.dropMark⟩ :: more.map (⟨·, false⟩) ∧ t.dropMark = false ∧
          t.tx = s.tx ∧ t.replies = s.replies
      (s.phase = .inReset → t.arb = s.arb ∧ reported []) ∧
      (s.phase ≠ .inReset → s.arb.owner = x →
        (w.sourceMode ≠ .sole → otherLive →
          entered handoverTo { s.arb with owner := otherLink x, lock := false, holdoff := true } ∧
          reported [.handover x (otherLink x) .loss]) ∧
        (w.sourceMode = .sole ∨ ¬ otherLive → entered .hold { s.arb with lock := false } ∧ reported [])) ∧
      (s.phase ≠ .inReset → s.arb.owner ≠ x → reported [] ∧
        (w.sourceMode ≠ .merge → t.arb = s.arb) ∧
        (w.sourceMode = .merge → otherLive → entered handoverTo s.arb) ∧
        (w.sourceMode = .merge → ¬ otherLive → (waits → t.arb = s.arb) ∧ (¬ waits → entered .hold s.arb))))

/-! ## The control arbiter -/

/-- R28, R29, R32 to R34, R90: the console contribution K of each channel, by the console-source state, with the mode target T
and the fractions as they stand; and what the arbiter's step expiry does in each console-source state. Its three events are
that step expiry where it brings them about, and nothing in any other state (log 6). -/
def Obligations.ArbiterStepCounts : Prop :=
  ∀ s : State,
    (∀ ch,
      let target : Nat := match s.working.sourceMode with
        | .isolated => 0
        | .sole | .tracking => 257 * bufferLevel s s.arb.owner ch
        | .merge => 257 * max (if (linkOf s .a).state = .live then bufferLevel s .a ch else 0)
            (if (linkOf s .b).state = .live then bufferLevel s .b ch else 0)
      let held := snapshotLevel s ch
      let fraction (d : Nat) : Nat := if d = 0 ∨ d ≤ s.arb.elapsed then 4096 else s.arb.elapsed * 4096 / d
      contribution s ch = match s.arb.source with
        | .normal => target
        | .handover =>
          if held ≤ target then held + (target - held) * fraction s.working.handoverTime / 4096
          else held - (held - target) * fraction s.working.handoverTime / 4096
        | .hold => held
        | .lossFade => held - held * fraction s.working.lossFadeTime / 4096
        | .dark | .off => 0) ∧
    (s.phase ≠ .inReset →
      let e := min 65535 (s.arb.elapsed + 1)
      let moved (src : SourceState) (n : Nat) : State := { s with arb := { s.arb with source := src, elapsed := n } }
      let handoverEnds := s.arb.source = .handover ∧ s.working.handoverTime ≤ e
      let holdEnds := s.arb.source = .hold ∧ s.working.lossFadeDelay ≠ 0 ∧ s.working.lossFadeDelay ≤ e
      let lossFadeEnds := s.arb.source = .lossFade ∧ s.working.lossFadeTime ≤ e
      (s.arb.source = .normal ∨ s.arb.source = .dark ∨ s.arb.source = .off → exec .arbiterStep s = .next s) ∧
      (s.arb.source = .handover → ¬ handoverEnds → exec .arbiterStep s = .next (moved .handover e)) ∧
      (s.arb.source = .hold → ¬ holdEnds → exec .arbiterStep s = .next (moved .hold e)) ∧
      (s.arb.source = .lossFade → ¬ lossFadeEnds → exec .arbiterStep s = .next (moved .lossFade e)) ∧
      (handoverEnds → ∀ i ∈ [Instr.arbiterStep, Instr.handoverComplete],
        exec i s = .next (moved (if s.working.sourceMode = .isolated then .off else .normal) e)) ∧
      (holdEnds → ∀ i ∈ [Instr.arbiterStep, Instr.lossFadeStart],
        exec i s = .next (moved (if s.working.lossFadeTime = 0 then .dark else .lossFade) 0)) ∧
      (lossFadeEnds → ∀ i ∈ [Instr.arbiterStep, Instr.lossFadeEnd], exec i s = .next (moved .dark e)) ∧
      (¬ handoverEnds → exec .handoverComplete s = .next s) ∧ (¬ holdEnds → exec .lossFadeStart s = .next s) ∧
      (¬ lossFadeEnds → exec .lossFadeEnd s = .next s))

/-- R22: a TAKE is decided by the first condition of the table that holds. A taken one changes the owner and makes a handover
trigger, as R21 and R31 state. The snapshot is the console contribution just before the TAKE (log 17). The HANDOVER report is
shown where both return lines are sending and the queue has room, and where the new owner's line is IDLE without a reply: there
the oldest waiting report's frame starts at once, before the HANDOVER report is offered, the model's choice (log 23). -/
def Obligations.TakeIsDecided : Prop :=
  ∀ (s : State) (r : Req), taken s r →
    let refused (res : Result) : Host.Outcome State Fault Refusal := .next (answered s r 0x40 res [])
    if s.working.sourceMode = .sole then exec (.take r) s = refused .mode
    else if s.arb.owner = r.link then exec (.take r) s = refused .ok
    else if s.arb.lock then exec (.take r) s = refused .locked
    else if s.arb.holdoff then exec (.take r) s = refused .holdoff
    else if (linkOf s r.link).state ≠ .live then exec (.take r) s = refused .notLive
    else ∃ t, exec (.take r) s = .next (answered t r 0x40 .ok []) ∧
      t.arb.owner = r.link ∧ t.arb.lock = false ∧ t.arb.holdoff = true ∧
      (s.working.handoverTime ≠ 0 → t.arb.source = .handover ∧ t.arb.elapsed = 0) ∧
      (s.working.handoverTime = 0 → t.arb.source = if s.working.sourceMode = .isolated then .off else .normal) ∧
      (∀ ch, 1 ≤ ch → ch ≤ 512 → snapshotLevel t ch = contribution s ch) ∧
      t = { s with arb := t.arb, reports := t.reports, dropMark := t.dropMark, tx := t.tx, replies := t.replies } ∧
      ((∀ x, s.tx.get x ≠ none) → s.reports.length < 32 →
        t = { s with arb := t.arb, dropMark := false,
                     reports := s.reports ++ [⟨.handover s.arb.owner r.link .take, s.dropMark⟩] }) ∧
      (s.tx.get r.link = none → s.replies.get r.link = [] → s.reports.length ≤ 32 → ∀ q rest,
        s.reports ++ [⟨.handover s.arb.owner r.link .take, s.dropMark⟩] = q :: rest →
        t = { s with arb := t.arb, dropMark := false, reports := rest,
                     tx := s.tx.put r.link (some (linkFrame 0x40 (reportPayload s.working.unit q))) })

/-- R23: LOCK and UNLOCK from the owner. -/
def Obligations.LockAndUnlock : Prop :=
  ∀ (s : State) (r : Req), takenFromOwner s r →
    ((linkOf s s.arb.owner).state = .live →
      exec (.lock r) s = .next (answered { s with arb := { s.arb with lock := true } } r 0x41 .ok [])) ∧
    ((linkOf s s.arb.owner).state ≠ .live → exec (.lock r) s = .next (answered s r 0x41 .notLive [])) ∧
    exec (.unlock r) s = .next (answered { s with arb := { s.arb with lock := false } } r 0x42 .ok [])

/-- R89: at every handover trigger and every entry into HOLD that a TAKE, the loss of a link, a link's change into LIVE (a
return, a reclaim, or a trigger in MERGE), or a WRITE makes, the console contribution of each channel stands as it was just
before, while the handover time is not 0. A WRITE of several words may also write the times that the contribution is formed
from, whose own jumps R89 grants: the statement is of one that leaves them, or that moves the source. That the link's change
into LIVE does not move it holds of the states ConsoleInv allows, in which the frame's own levels do not count before it. -/
def Obligations.SourceChangesDoNotJump : Prop :=
  ∀ (s t : State) (r : Req) (x : Link) (v : Word) (ws : List Word) (b : Byte), s.phase ≠ .inReset →
    let stands : Prop := ∀ ch, 1 ≤ ch → ch ≤ 512 → contribution t ch = contribution s ch
    (s.working.handoverTime ≠ 0 →
      ∀ i ∈ [Instr.take r, Instr.lossTimerStep x, Instr.lossTimerExpiry x, Instr.sourceModeWrite r v,
        Instr.preferredLinkWrite r v], exec i s = .next t → stands) ∧
    (s.working.handoverTime ≠ 0 → ConsoleInv s → (linkOf s x).state = .acquiring → (linkOf t x).state = .live →
      ∀ i ∈ [Instr.receivedByte x b, Instr.frameComplete x b], exec i s = .next t → stands) ∧
    (t.working.handoverTime ≠ 0 → t.working.lossFadeTime = s.working.lossFadeTime →
      (t.working.handoverTime = s.working.handoverTime ∨ t.working.sourceMode ≠ s.working.sourceMode ∨
        t.arb.owner ≠ s.arb.owner) →
      exec (.write r ws) s = .next t → stands)

/-! ## The taking of requests -/

/-- R10, R17, R135, R136: the checks around every request. One that is no broadcast and finds its link's reply queue full is
dropped unexecuted, and counted. One with a parameter outside its range is refused with BAD_REQUEST, whatever link it
comes from. An owner-only one from the standby is refused with NOT_OWNER. A refused one changes nothing but its reply,
whose data the statement leaves open with the count of free values drawn (a WRITE reports 0 words taken; log 4, log 14).
One that passes the checks is run: it has the effect and the answer its block gives it, and then its reply; it stops where a
chain of follows in it has no end (log 5). (A code or a number of parameter bytes that spells no request is
RequestFrameIsFilteredAndRuns.) -/
def Obligations.RequestsAreCheckedInOrder : Prop :=
  ∀ (s : State) (r : Req) (q : Request), s.phase = .running → s.followStuck = false →
    let l := linkOf s r.link
    (r.unit ≠ 0 → 4 ≤ (s.replies.get r.link).length →
      exec (q.command r) s = .next (setLink s r.link
        { l with counters := { l.counters with dropped := min 65535 (l.counters.dropped + 1) } })) ∧
    (taken s r → q.inRange = false →
      ∃ data, exec (q.command r) s = .next (answered s r q.code .badRequest data) ∧
        ((∃ ws, q = .write ws) → data = [0])) ∧
    (taken s r → s.arb.owner ≠ r.link → q.inRange = true → q.ownerOnly = true →
      ∃ data n, exec (q.command r) s = .next (answered { s with freeDraws := n } r q.code .notOwner data) ∧
        ((∃ ws, q = .write ws) → data = [0]) ∧ (q ≠ .apply → n = s.freeDraws)) ∧
    (taken s r → q.inRange = true → (q.ownerOnly = true → s.arb.owner = r.link) →
      let a := answer s r.link q
      exec (q.command r) s =
        if a.state.followStuck then .fault .endlessFollowChain
        else .next (answered a.state r q.code a.result a.data))

/-- R142 to R145, R171: a reply waits at the end of its link's queue while the link's return line is sending; where the line is
IDLE its frame starts at once; a broadcast has none. An offered report is appended with the drop mark, or at 32 waiting
reports dropped with the mark set; where the owner's line is IDLE without a reply, the oldest report's frame starts at once.
At a frame start the oldest reply of the link goes first, then, on the owner's line, the oldest report; otherwise the
transmitter becomes IDLE. RETURN_FRAME_START is a frame start on an IDLE line (log 16: in a state that a run reaches none is
due there), RETURN_FRAME_END the one at the end of a frame; where the line is not in the state for it the command changes
nothing (log 6). A report carries its kind, the flag of dropped reports, its data and the unit number. -/
def Obligations.ReturnLinesSendFrames : Prop :=
  ∀ (s : State) (x : Link),
    let replyFrame (r : Reply) : List Byte := linkFrame 0x30 (r.unit :: r.tag :: r.code :: resultCode r.result :: r.data)
    let reportFrame (r : Report) : List Byte := linkFrame 0x40 (reportPayload s.working.unit r)
    (∀ k, s.phase ≠ .running ∨ s.tx.get s.arb.owner ≠ none →
      (s.reports.length < 32 → offerReport s k = { s with reports := s.reports ++ [⟨k, s.dropMark⟩], dropMark := false }) ∧
      (32 ≤ s.reports.length → offerReport s k = { s with dropMark := true })) ∧
    (∀ k q rest, s.phase = .running → s.tx.get s.arb.owner = none → s.replies.get s.arb.owner = [] →
      s.reports.length < 32 → s.reports ++ [⟨k, s.dropMark⟩] = q :: rest →
      offerReport s k =
        { s with reports := rest, dropMark := false, tx := s.tx.put s.arb.owner (some (reportFrame q)) }) ∧
    (∀ (unit : Nat) k (dropped : Bool), reportPayload unit ⟨k, dropped⟩ =
      let of (code : Byte) (data : List Byte) : List Byte := byteOf unit :: code :: (if dropped then 1 else 0) :: data
      let link (y : Link) : Byte := if y = .a then 0 else 1
      match k with
      | .cueDone p n label => of 1 [byteOf (p.val + 1), byteOf (n % 65536 / 256), byteOf n, byteOf (label.toNat / 256), byteOf label.toNat]
      | .linkLive y => of 2 [link y]
      | .linkDown y => of 3 [link y]
      | .handover old new cause =>
        of 4 [link old, link new, match cause with | .take => 0 | .loss => 1 | .reclaim => 2 | .ret => 3]
      | .fault a => of 5 [byteOf (a / 65536), byteOf (a / 256), byteOf a]
      | .opDone op res a => of 6 [match op with | .copy => 0 | .verify => 1,
          match res with
          | .none => 0 | .pass => 1 | .checksum => 2 | .structFail => 3 | .fault => 4 | .stale => 5 | .aborted => 6,
          byteOf (a / 65536), byteOf (a / 256), byteOf a]
      | .switched b held => of 7 [if b = .b0 then 0 else 1, if held then 1 else 0]
      | .startup res => of 8 [match res with | .normal => 0 | .fallback => 1 | .safe => 2]) ∧
    (∀ (typ : Byte) (payload : List Byte), payload.length < 65536 →
      let covered := typ :: byteOf (payload.length / 256) :: byteOf payload.length :: payload
      linkFrame typ payload = 0xE7 :: covered ++ [byteOf ((crc16 covered).toNat / 256), byteOf (crc16 covered).toNat]) ∧
    (s.phase = .running →
      (∀ (r : Req) code res data, r.unit = 0 → answered s r code res data = s) ∧
      (∀ (r : Req) code res data, r.unit ≠ 0 → s.tx.get r.link ≠ none → answered s r code res data =
        { s with replies := s.replies.put r.link (s.replies.get r.link ++ [⟨r.unit, r.tag, code, res, data⟩]) }) ∧
      (∀ (r : Req) code res data, r.unit ≠ 0 → s.tx.get r.link = none → s.replies.get r.link = [] →
        answered s r code res data =
          { s with tx := s.tx.put r.link (some (replyFrame ⟨r.unit, r.tag, code, res, data⟩)) }) ∧
      (∀ i, (i = Instr.returnFrameStart x ∧ s.tx.get x = none) ∨ (i = .returnFrameEnd x ∧ s.tx.get x ≠ none) →
        (∀ r rest, s.replies.get x = r :: rest → exec i s =
          .next { s with replies := s.replies.put x rest, tx := s.tx.put x (some (replyFrame r)) }) ∧
        (∀ r rest, s.replies.get x = [] → s.arb.owner = x → s.reports = r :: rest → exec i s =
          .next { s with reports := rest, tx := s.tx.put x (some (reportFrame r)) }) ∧
        (s.replies.get x = [] → (s.arb.owner = x → s.reports = []) → exec i s = .next { s with tx := s.tx.put x none })) ∧
      (s.tx.get x ≠ none → exec (.returnFrameStart x) s = .next s) ∧
      (s.tx.get x = none → exec (.returnFrameEnd x) s = .next s))

/-! ## The table space -/

/-- R106, R107, R137, R139, R140, R149, R155, R173: what each address of the table space reads as: a retained word as it is
stored, or a fault; the fixed curve 0; the status words; a playback's state words; the active bank's tables as the shadow
holds them, which is never a fault; the live window as the live words stand, or the fixed tables in safe mode; and nothing at
any other address. What a progress count past 24 bits reads as is left open (log 24). INDEX sets the index of its own link,
to any address. A READ returns the words of consecutive addresses, as the table space stands, up to the first that cannot be
returned; the index rests there or after the last word, and nothing else changes but the fault list. -/
def Obligations.IndexAndRead : Prop :=
  ∀ s : State,
    let reads (a : Nat) (w : Word) : Prop := readTable s a = .value w
    let retainedAt (a word : Nat) : Prop :=
      (readWord s word = none → readTable s a = .fault word) ∧ ∀ w, readWord s word = some w → reads a w
    let flag (b : Bool) : Word := if b then 1 else 0
    let upper (n : Nat) : Word := wordOf (n / 65536)
    let status (i : Nat) (w : Word) : Prop := reads (0x1000 + i) w
    (∀ i < 28, retainedAt i i) ∧ retainedAt 0x2100 0x2100 ∧
    (∀ (p : PlaybackNo) (i : Nat), i < 5 → retainedAt (0x2000 + 16 * p.val + i) (0x2000 + 16 * p.val + i)) ∧
    (∀ g i, 1 ≤ g → g ≤ 7 → i < 33 → retainedAt (0x3000 + 33 * g + i) (0x3000 + 33 * g + i)) ∧
    (∀ i < 33, reads (0x3000 + i) (wordOf (min 65535 (2048 * i)))) ∧
    (∀ b off, off < 79683 → (s.safeMode = true ∨ b ≠ s.active ∨ off < 3 ∨ 2627 ≤ off) →
      retainedAt (bankBase b + off) (bankBase b + off)) ∧
    (s.safeMode = false → ∀ off, 3 ≤ off → off < 2627 →
      reads (bankBase s.active + off) (shadowWord s off) ∧ retainedAt (0x4000 + (off - 3)) (bankBase s.active + off)) ∧
    (s.safeMode = true →
      (∀ i < 512, reads (0x4000 + i) 0) ∧
      (∀ c, 1 ≤ c → c ≤ 1024 → reads (0x4000 + 510 + 2 * c) (if c ≤ 512 then wordOf c else 0) ∧
        reads (0x4000 + 511 + 2 * c) (if c ≤ 512 then 255 else 0)) ∧
      ∀ r j, 1 ≤ r → r ≤ 8 → j < 8 → reads (0x4000 + 2552 + 8 * r + j) (if j = 0 then 1 else 0)) ∧
    (∀ x : Link,
      let c := (linkOf s x).counters
      let first := if x = .a then 2 else 11
      status (if x = .a then 0 else 1) (match (linkOf s x).state with | .down => 0 | .acquiring => 1 | .live => 2) ∧
      status first (wordOf c.goodLevel) ∧ status (first + 1) (wordOf c.goodRequest) ∧ status (first + 2) (wordOf c.crc) ∧
      status (first + 3) (wordOf c.length) ∧ status (first + 4) (wordOf c.gap) ∧ status (first + 5) (wordOf c.oversize) ∧
      status (first + 6) (wordOf c.unknownType) ∧ status (first + 7) (wordOf c.filtered) ∧
      status (first + 8) (wordOf c.dropped)) ∧
    (∀ k : LineNo, status (20 + k.val) (wordOf (lineAt s k).late)) ∧
    status 24 (if s.arb.owner = .a then 0 else 1) ∧
    status 25 (match s.arb.source with
      | .normal => 0 | .handover => 1 | .hold => 2 | .lossFade => 3 | .dark => 4 | .off => 5) ∧
    status 26 (flag s.arb.lock) ∧ status 27 (flag s.arb.holdoff) ∧
    status 28 (match s.slot with | .empty => 0 | .copy _ _ _ _ => 1 | .verify _ _ _ _ => 2) ∧
    (∀ n, (s.slot = .empty ∧ n = 0) ∨ (∃ src dst count, s.slot = .copy src dst count n) ∨
        (∃ b pass stale, s.slot = .verify b pass stale n) →
      n < 0x1000000 → status 29 (upper n) ∧ status 30 (wordOf n)) ∧
    status 31 (match s.lastVerify with
      | .none => 0 | .pass => 1 | .checksum => 2 | .structFail => 3 | .fault => 4 | .stale => 5 | .aborted => 6) ∧
    status 32 (upper s.lastVerifyAddr) ∧ status 33 (wordOf s.lastVerifyAddr) ∧
    status 34 (flag (s.verified.get .b0)) ∧ status 35 (flag (s.verified.get .b1)) ∧
    status 36 (if s.safeMode then 0xFFFF else if s.active = .b0 then 0 else 1) ∧
    status 37 (flag s.safeMode) ∧ status 38 (flag s.patchHold) ∧ status 39 (wordOf s.faultList.length) ∧
    status 40 (flag s.faultOverflow) ∧
    (∀ i < 16, status (41 + 2 * i) (upper (s.faultList.getD i 0)) ∧ status (42 + 2 * i) (wordOf (s.faultList.getD i 0))) ∧
    status 73 (flag s.dropMark) ∧
    (∀ p : PlaybackNo,
      let pb := playbackAt s p
      let word (i : Nat) (w : Word) : Prop := reads (0x2000 + 16 * p.val + i) w
      let phase (f : FadePart) : Word := match f.phase with | .delay => 0 | .running => 1 | .done => 2
      word 5 (match pb.state with
        | .unbound => 0 | .ready => 1 | .fading => 2 | .paused => 3 | .atCue => 4 | .releasing => 5) ∧
      word 6 (match pb.cue with | some c => wordOf c.number | none => 0) ∧ word 7 (wordOf pb.list.length) ∧
      word 8 (phase pb.up) ∧ word 9 (phase pb.down) ∧
      word 10 (match pb.follow with | some n => wordOf n | none => 0) ∧ ∀ i, 11 ≤ i → i < 16 → word i 0) ∧
    (∀ a, (0x1C ≤ a ∧ a < 0x1000) ∨ (0x104A ≤ a ∧ a < 0x2000) ∨ (0x2101 ≤ a ∧ a < 0x3000) ∨ (0x3108 ≤ a ∧ a < 0x4000) ∨
        (0x4A40 ≤ a ∧ a < 0x100000) ∨ (0x113743 ≤ a ∧ a < 0x140000) ∨ 0x153743 ≤ a → readTable s a = .unmapped) ∧
    ∀ r : Req, taken s r →
      (∀ addr, exec (.index r addr) s =
        .next (answered { s with tableIndex := s.tableIndex.put r.link addr.toNat } r 0x01 .ok [])) ∧
      ∀ n : Word, 1 ≤ n.toNat → n.toNat ≤ 250 →
      let a := s.tableIndex.get r.link
      let at_ (i : Nat) : Nat := (a + i) % 0x1000000
      a < 0x1000000 →
      ∃ (ws : List Word) (res : Result) (t : State),
        exec (.read r n) s = .next (answered t r 0x03 res (ws.flatMap wordBytes)) ∧ ws.length ≤ n.toNat ∧
        (∀ i < ws.length, readTable s (at_ i) = .value (ws.getD i 0)) ∧
        (res = .ok ↔ ws.length = n.toNat) ∧
        (ws.length < n.toNat →
          (readTable s (at_ ws.length) = .unmapped ∧ res = .unmapped) ∨
          ∃ f, readTable s (at_ ws.length) = .fault f ∧ res = .fault ∧
            t = offerFault { s with tableIndex := s.tableIndex.put r.link (at_ ws.length) } f) ∧
        (res ≠ .fault → t = { s with tableIndex := s.tableIndex.put r.link (at_ ws.length) })

/-- R138: how a WRITE from the owner ends, and what it leaves. Its words are offered one by one at consecutive addresses, the
first n are taken and the next, if there is one, is refused with the code of the reply; the reply gives n, and the index rests
after the last word taken. `writeWord` decides each word on the state the words before it leave (SettingIsWritten,
BoundStackIsWritten, CounterIsCleared, ActiveBankWordIsDecided and StagedBankWordIsTaken say how). The state left is that of
the words, but for what the arbiter does on a written source mode or preferred link. The store changes at the addresses taken
alone (and at the count of a region of the active bank whose base was), and holds the words themselves at curve points and in
staged banks. -/
def Obligations.WriteCountsWordsTaken : Prop :=
  ∀ (s : State) (r : Req) (ws : List Word), takenFromOwner s r → 1 ≤ ws.length → ws.length ≤ 250 →
    s.tableIndex.get r.link < 0x1000000 →
    let at_ (i : Nat) : Nat := (s.tableIndex.get r.link + i) % 0x1000000
    ∃ (n : Nat) (res : Result) (u : Nat → State) (w t : State),
      exec (.write r ws) s = .next (answered t r 0x02 res [byteOf n]) ∧ n ≤ ws.length ∧
      u 0 = s ∧ (∀ i < n, writeWord (u i) (at_ i) (ws.getD i 0) = .taken (u (i + 1))) ∧
      (n = ws.length → res = .ok ∧ w = u n) ∧
      (n < ws.length → res ≠ .ok ∧ writeWord (u n) (at_ n) (ws.getD n 0) = .refused res w) ∧
      t = { w with tableIndex := s.tableIndex.put r.link (at_ n), arb := t.arb, reports := t.reports,
                   dropMark := t.dropMark, tx := t.tx, replies := t.replies } ∧
      (w.working.sourceMode = s.working.sourceMode → (∀ i < n, at_ i ≠ 1) →
        t = { w with tableIndex := s.tableIndex.put r.link (at_ n) }) ∧
      (∀ a, stored t a ≠ stored s a → ∃ i < n, a = at_ i ∨
        (a = at_ i + 1 ∧ s.safeMode = false ∧ ∃ g < 8, at_ i = bankBase s.active + 2563 + 8 * g)) ∧
      (∀ i < n,
        (0x3021 ≤ at_ i ∧ at_ i ≤ 0x3107) ∨
        (∃ b off, (s.safeMode = true ∨ b ≠ s.active) ∧ off < 79683 ∧ at_ i = bankBase b + off) →
        stored t (at_ i) = ⟨ws.getD i 0, false⟩) ∧
      t.pending = s.pending ∧ t.takeOrder = s.takeOrder ∧ t.prevOut = s.prevOut ∧ t.stackIndex = s.stackIndex ∧
      t.safeMode = s.safeMode ∧ t.active = s.active ∧ t.patchHold = s.patchHold ∧ t.panel = s.panel ∧
      (∀ p, (playbackAt t p).list = (playbackAt s p).list ∧ (playbackAt t p).cue = (playbackAt s p).cue)

/-- R19, R53, R76, R99, R115, R123, R138, R139, R140, R166: a WRITE of one word, where the index stands at a global setting
other than the source mode, the preferred link and the line enables: the value taken, clamped where the setting is clamped, or
the refusal with RANGE; at a playback's priority, master, back time or release time; at a point of a curve; at a word that
cannot be written (READ_ONLY); and at an unmapped address (UNMAPPED). UNIT_NUMBER_WRITE is the one at offset 9 (log 7). -/
def Obligations.SettingIsWritten : Prop :=
  ∀ (s : State) (r : Req) (v : Word), takenFromOwner s r →
    let a := s.tableIndex.get r.link
    let put (i : Nat) (w : Word) : State :=
      { s with store := tset defaultStored s.store i ⟨w, false⟩, faultList := s.faultList.filter (· ≠ i),
               tableIndex := s.tableIndex.put r.link (i + 1) }
    (∀ i, 2 ≤ i → i < 28 → (i < 12 ∨ i % 4 ≠ 0) →
      let clamp (lo hi : Nat) : Option Nat := some (max lo (min hi v.toNat))
      let only (lo hi : Nat) : Option Nat := if lo ≤ v.toNat ∧ v.toNat ≤ hi then some v.toNat else none
      let taken? : Option Nat :=
        if i = 2 then clamp 0 1 else if i = 3 then clamp 0 1000 else if i = 4 then clamp 10 1000
        else if i = 5 ∨ i = 6 then some v.toNat else if i = 7 then clamp 0 3 else if i = 8 then clamp 0 255
        else if i = 9 then only 1 15 else if i = 10 then only 1 16 else if i = 11 then clamp 0 1
        else if i % 4 = 1 then clamp 1 256 else if i % 4 = 2 then only 0 1 else clamp 1 10
      ∀ c, (c = Instr.write r [v] ∧ a = i) ∨ (c = .unitNumberWrite r v ∧ i = 9) →
      match taken? with
      | some w => exec c s = .next (answered
          { put i (wordOf w) with working := loadSetting s.working i (wordOf w) } r 0x02 .ok [1])
      | none => exec c s =
          .next (answered { s with tableIndex := s.tableIndex.put r.link i } r 0x02 .range [0])) ∧
    (∀ (p : PlaybackNo) (i : Nat), 1 ≤ i → i ≤ 4 → a = 0x2000 + 16 * p.val + i →
      exec (.write r [v]) s = .next (answered (put a
        (if i = 1 then wordOf (min 3 v.toNat) else if i = 2 then wordOf (min 255 v.toNat) else v)) r 0x02 .ok [1])) ∧
    (∀ g j, 1 ≤ g → g ≤ 7 → j < 33 → a = 0x3000 + 33 * g + j →
      exec (.write r [v]) s = .next (answered (put a v) r 0x02 .ok [1])) ∧
    ((0x1000 ≤ a ∧ a ≤ 0x1001) ∨ (0x1018 ≤ a ∧ a ≤ 0x1049) ∨ (0x2000 ≤ a ∧ a ≤ 0x20FF ∧ 5 ≤ a % 16) ∨ a = 0x2100 ∨
        (0x3000 ≤ a ∧ a ≤ 0x3020) ∨ (0x4000 ≤ a ∧ a ≤ 0x4A3F) →
      exec (.write r [v]) s = .next (answered s r 0x02 .readOnly [0])) ∧
    ((0x1C ≤ a ∧ a < 0x1000) ∨ (0x104A ≤ a ∧ a < 0x2000) ∨ (0x2101 ≤ a ∧ a < 0x3000) ∨ (0x3108 ≤ a ∧ a < 0x4000) ∨
        (0x4A40 ≤ a ∧ a < 0x100000) ∨ (0x113743 ≤ a ∧ a < 0x140000) ∨ (0x153743 ≤ a ∧ a < 0x1000000) →
      exec (.write r [v]) s = .next (answered s r 0x02 .unmapped [0]))

/-- R35, R31, R21: a write of the source mode. A code outside the four is refused; the mode in force changes nothing; a new mode
replaces it and places ownership, and the write's trigger is resolved with the new mode. A change of owner is reported with
the cause RECLAIM (SOLE) or RETURN, shown where both return lines are sending and the queue has room. The snapshot is the console
contribution just before the write (log 17). The command moves its link's index as the WRITE of one word does (log 7). -/
def Obligations.SourceModeIsWritten : Prop :=
  ∀ (s : State) (r : Req) (v : Word), takenFromOwner s r →
    (4 ≤ v.toNat → exec (.sourceModeWrite r v) s =
      .next (answered { s with tableIndex := s.tableIndex.put r.link 0 } r 0x02 .range [0])) ∧
    (v.toNat < 4 → ∃ t, exec (.sourceModeWrite r v) s = .next (answered t r 0x02 .ok [1]) ∧
      stored t 0 = ⟨v, false⟩ ∧ (∀ a, a ≠ 0 → stored t a = stored s a) ∧
      t.working = { s.working with sourceMode := sourceModeOf v.toNat } ∧
      t = { s with store := t.store, faultList := t.faultList, working := t.working, arb := t.arb, reports := t.reports,
                   dropMark := t.dropMark, tx := t.tx, replies := t.replies, tableIndex := s.tableIndex.put r.link 1 } ∧
      (sourceModeOf v.toNat = s.working.sourceMode → t.arb = s.arb ∧ t.reports = s.reports ∧ t.tx = s.tx) ∧
      (sourceModeOf v.toNat ≠ s.working.sourceMode →
        t.arb.owner = (if v = 1 then s.working.preferred
          else if (linkOf s s.arb.owner).state ≠ .live ∧ (linkOf s (otherLink s.arb.owner)).state = .live then
            otherLink s.arb.owner
          else s.arb.owner) ∧
        (t.arb.owner ≠ s.arb.owner → t.arb.lock = false ∧ t.arb.holdoff = true) ∧
        (t.arb.owner = s.arb.owner → t.arb.lock = s.arb.lock ∧ t.arb.holdoff = s.arb.holdoff ∧
          t.reports = s.reports ∧ t.dropMark = s.dropMark ∧ t.tx = s.tx ∧ t.replies = s.replies) ∧
        (t.arb.owner ≠ s.arb.owner → (∀ y, s.tx.get y ≠ none) → s.reports.length < 32 →
          t.reports = s.reports ++ [⟨.handover s.arb.owner t.arb.owner (if v = 1 then .reclaim else .ret), s.dropMark⟩] ∧
          t.dropMark = false ∧ t.tx = s.tx ∧ t.replies = s.replies) ∧
        let present := if v = 3 then (linkOf s .a).state = .live ∨ (linkOf s .b).state = .live
          else (linkOf s t.arb.owner).state = .live
        let waits := s.arb.source = .hold ∨ s.arb.source = .lossFade ∨ s.arb.source = .dark
        let entered (src : SourceState) : Prop := t.arb.source = src ∧ t.arb.elapsed = 0 ∧
          ∀ ch, 1 ≤ ch → ch ≤ 512 → snapshotLevel t ch = contribution s ch
        (v = 0 ∨ present → entered (if s.working.handoverTime ≠ 0 then .handover else if v = 0 then .off else .normal)) ∧
        (v ≠ 0 → ¬ present → (waits → t.arb.source = s.arb.source ∧ t.arb.elapsed = s.arb.elapsed ∧
          t.arb.snapshot = s.arb.snapshot) ∧ (¬ waits → entered .hold))))

/-- R36, R19, R31, R21: a write of the preferred link. Above 1 is clamped to B. In SOLE the new preferred link becomes the owner,
reported with the cause RECLAIM (shown where both return lines are sending and the queue has room); in the other modes no
ownership and no source changes. The snapshot is the console contribution just before the write (log 17).
The command moves its link's index as the WRITE of one word does (log 7). -/
def Obligations.PreferredLinkIsWritten : Prop :=
  ∀ (s : State) (r : Req) (v : Word), takenFromOwner s r →
    let x : Link := if v = 0 then .a else .b
    ∃ t, exec (.preferredLinkWrite r v) s = .next (answered t r 0x02 .ok [1]) ∧
      stored t 1 = ⟨if v = 0 then 0 else 1, false⟩ ∧ (∀ a, a ≠ 1 → stored t a = stored s a) ∧
      t.working = { s.working with preferred := x } ∧
      t = { s with store := t.store, faultList := t.faultList, working := t.working, arb := t.arb, reports := t.reports,
                   dropMark := t.dropMark, tx := t.tx, replies := t.replies, tableIndex := s.tableIndex.put r.link 2 } ∧
      (s.working.sourceMode ≠ .sole ∨ s.arb.owner = x →
        t.arb = s.arb ∧ t.reports = s.reports ∧ t.dropMark = s.dropMark ∧ t.tx = s.tx ∧ t.replies = s.replies) ∧
      (s.working.sourceMode = .sole → s.arb.owner ≠ x → t.arb.owner = x ∧ t.arb.lock = false ∧ t.arb.holdoff = true ∧
        ((∀ y, s.tx.get y ≠ none) → s.reports.length < 32 →
          t.reports = s.reports ++ [⟨.handover s.arb.owner x .reclaim, s.dropMark⟩] ∧
          t.dropMark = false ∧ t.tx = s.tx ∧ t.replies = s.replies) ∧
        let waits := s.arb.source = .hold ∨ s.arb.source = .lossFade ∨ s.arb.source = .dark
        let entered (src : SourceState) : Prop := t.arb.source = src ∧ t.arb.elapsed = 0 ∧
          ∀ ch, 1 ≤ ch → ch ≤ 512 → snapshotLevel t ch = contribution s ch
        ((linkOf s x).state = .live → entered (if s.working.handoverTime ≠ 0 then .handover else .normal)) ∧
        ((linkOf s x).state ≠ .live → (waits → t.arb.source = s.arb.source ∧ t.arb.elapsed = s.arb.elapsed ∧
          t.arb.snapshot = s.arb.snapshot) ∧ (¬ waits → entered .hold)))

/-- R54: a write of a bound stack is decided by the first case that holds. A taken write changes the word, its listing in the
fault list, and the playback's state. The command moves its link's index as the WRITE of one word does (log 7). -/
def Obligations.BoundStackIsWritten : Prop :=
  ∀ (s : State) (r : Req) (p : PlaybackNo) (v : Word), takenFromOwner s r →
    let a := 0x2000 + 16 * p.val
    let refused (res : Result) : Host.Outcome State Fault Refusal :=
      .next (answered { s with tableIndex := s.tableIndex.put r.link a } r 0x02 res [0])
    let state := (playbackAt s p).state
    if 16 < v.toNat then exec (.boundStackWrite r p v) s = refused .range
    else if state = .fading ∨ state = .paused ∨ state = .atCue ∨ state = .releasing then
      exec (.boundStackWrite r p v) s = refused .busy
    else if s.safeMode = true ∧ v ≠ 0 then exec (.boundStackWrite r p v) s = refused .state
    else exec (.boundStackWrite r p v) s = .next (answered
      { setPlayback s p { playbackAt s p with state := if v = 0 then .unbound else .ready } with
        store := tset defaultStored s.store a ⟨v, false⟩, faultList := s.faultList.filter (· ≠ a),
        tableIndex := s.tableIndex.put r.link (a + 1) } r 0x02 .ok [1])

/-- R133, R123: a write of a line's enable, by the line's transmit state. The command moves its link's index as the WRITE of
one word does (log 7); the count of a stopped period timer is kept (log 19). -/
def Obligations.LineEnableIsWritten : Prop :=
  ∀ (s : State) (r : Req) (k : LineNo) (v : Word), takenFromOwner s r →
    let a := 12 + 4 * k.val
    let l := lineAt s k
    ∃ t, exec (.lineEnableWrite r k v) s = .next (answered t r 0x02 .ok [1]) ∧
      stored t a = ⟨if v = 0 then 0 else 1, false⟩ ∧ (∀ b, b ≠ a → stored t b = stored s b) ∧
      lineSettings t k = { lineSettings s k with enable := v != 0 } ∧
      (∀ j, j ≠ k → lineSettings t j = lineSettings s j) ∧ t.working = { s.working with lines := t.working.lines } ∧
      t = { s with store := t.store, faultList := t.faultList, working := t.working, lines := t.lines,
                   tableIndex := s.tableIndex.put r.link (a + 1) } ∧
      (∀ j, j ≠ k → lineAt t j = lineAt s j) ∧
      (v ≠ 0 → l.tx = .silent → lineAt t k = { l with tx := .waiting, timer := 0 }) ∧
      (v ≠ 0 → l.tx = .stopping → lineAt t k = { l with tx := .sending, timer := 0 }) ∧
      (v ≠ 0 → l.tx = .waiting ∨ l.tx = .sending ∨ l.tx = .startPending → lineAt t k = l) ∧
      (v = 0 → l.tx = .waiting → lineAt t k = { l with tx := .silent }) ∧
      (v = 0 → l.tx = .sending ∨ l.tx = .startPending → lineAt t k = { l with tx := .stopping }) ∧
      (v = 0 → l.tx = .silent ∨ l.tx = .stopping → lineAt t k = l)

/-- R17, R132, R140: a write of any value to a counter word clears that counter alone; an offset that names no counter word is
no COUNTER_CLEAR (log 11). The command moves its link's index as the WRITE of one word does (log 7). -/
def Obligations.CounterIsCleared : Prop :=
  ∀ (s : State) (r : Req) (off : Nat) (v : Word), takenFromOwner s r →
    (2 ≤ off → off ≤ 23 → ∃ t, exec (.counterClear r off v) s = .next (answered t r 0x02 .ok [1]) ∧
      (statusWords t).getD off 0 = 0 ∧
      (∀ i < 28, i ≠ off → (statusWords t).getD i 0 = (statusWords s).getD i 0) ∧
      t = { s with links := t.links, lines := t.lines,
                   tableIndex := s.tableIndex.put r.link (0x1000 + off + 1) } ∧
      (∀ x, linkOf t x = { linkOf s x with counters := (linkOf t x).counters }) ∧
      (∀ k, lineAt t k = { lineAt s k with late := (lineAt t k).late })) ∧
    (off < 2 ∨ 23 < off → exec (.counterClear r off v) s = .next s)

/-- R150, R154, R166: a word offered at an address of the active bank, by the first row that applies. A word taken with hold off
is rewritten in the live table and leaves the fault list, and every other retained word stands. What is protected is
CircuitFollowsRegionAndPatch. The command moves its link's index as the WRITE of one word does (log 7). -/
def Obligations.ActiveBankWordIsDecided : Prop :=
  ∀ (s : State) (r : Req) (off : Nat) (v : Word), takenFromOwner s r → s.safeMode = false → off < 79683 →
    let a := bankBase s.active + off
    let refused (t : State) (res : Result) : Host.Outcome State Fault Refusal :=
      .next (answered { t with tableIndex := s.tableIndex.put r.link a } r 0x02 res [0])
    let isPatch := 515 ≤ off ∧ off < 2563
    let protection := protectedCircuit s ((off - 515) / 2 + 1)
    (off < 3 ∨ 2627 ≤ off → exec (.activeBankWrite r off v) s = refused s .activeBank) ∧
    (isPatch → protection = .ok true → exec (.activeBankWrite r off v) s = refused s .protect) ∧
    (isPatch → ∀ f, protection = .error f → exec (.activeBankWrite r off v) s = refused (offerFault s f) .fault) ∧
    (3 ≤ off → off < 2627 → (¬ isPatch ∨ protection = .ok false) → tableCheck (shadowWord s) off v = none →
      exec (.activeBankWrite r off v) s = refused s .range) ∧
    (3 ≤ off → off < 2627 → (¬ isPatch ∨ protection = .ok false) → ∀ ws, tableCheck (shadowWord s) off v = some ws →
      ∃ t, exec (.activeBankWrite r off v) s = .next (answered t r 0x02 .ok [1]) ∧
        (∀ o w, (o, w) ∈ ws → shadowWord t o = w ∧
          (s.patchHold = false → stored t (bankBase s.active + o) = ⟨w, false⟩)) ∧
        (∀ o, (∀ w, (o, w) ∉ ws) → shadowWord t o = shadowWord s o) ∧
        (∀ b, (∀ o w, (o, w) ∈ ws → b ≠ bankBase s.active + o) → stored t b = stored s b) ∧
        (s.patchHold = true → t.store = s.store ∧ t.faultList = s.faultList ∧ t.verified = s.verified) ∧
        (s.patchHold = false → t.verified = s.verified.put s.active false ∧
          t.faultList = s.faultList.filter fun b => ws.all fun x => b != bankBase s.active + x.1) ∧
        t = { s with store := t.store, faultList := t.faultList, verified := t.verified, shadow := t.shadow,
                     tableIndex := s.tableIndex.put r.link (a + 1) })

/-- R151: the check of each table word against the shadow, and the words a taken one changes. A count is taken under any
base; which one under a shadow base above 1,025 is left open (log 27). -/
def Obligations.TableWordIsChecked : Prop :=
  ∀ (shadow : Nat → Word) (v : Word),
    (∀ ch, 1 ≤ ch → ch ≤ 512 → tableCheck shadow (2 + ch) v = if v.toNat < 4 then some [(2 + ch, v)] else none) ∧
    (∀ c, 1 ≤ c → c ≤ 1024 →
      tableCheck shadow (513 + 2 * c) v = (if v.toNat ≤ 512 then some [(513 + 2 * c, v)] else none) ∧
      tableCheck shadow (514 + 2 * c) v = (if v.toNat ≤ 255 then some [(514 + 2 * c, v)] else none)) ∧
    (∀ r, 1 ≤ r → r ≤ 8 →
      let o := 2555 + 8 * r
      (tableCheck shadow o v =
        if v.toNat = 0 ∨ 1024 < v.toNat then none
        else if 1025 - v.toNat < (shadow (o + 1)).toNat then some [(o, v), (o + 1, wordOf (1025 - v.toNat))]
        else some [(o, v)]) ∧
      ((shadow o).toNat ≤ 1025 →
        tableCheck shadow (o + 1) v = some [(o + 1, wordOf (min v.toNat (1025 - (shadow o).toNat)))]) ∧
      (1025 < (shadow o).toNat → ∃ w, tableCheck shadow (o + 1) v = some [(o + 1, w)]) ∧
      (tableCheck shadow (o + 2) v =
        if v.toNat < 64 ∧ (v.getLsbD 5 = true → 1 ≤ (shadow (o + 4)).toNat ∧ (shadow (o + 4)).toNat ≤ 1024) then
          some [(o + 2, v)]
        else none) ∧
      (tableCheck shadow (o + 4) v =
        if (1 ≤ v.toNat ∧ v.toNat ≤ 1024) ∨ (v = 0 ∧ (shadow (o + 2)).getLsbD 5 = false) then some [(o + 4, v)]
        else none) ∧
      ∀ j, j = 3 ∨ j = 5 ∨ j = 6 ∨ j = 7 → tableCheck shadow (o + j) v = some [(o + j, v)])

/-- R152, R154, R160: one word offered at an address of a staged bank: BUSY inside the destination of a running COPY, taken
as it is otherwise, which sets the stale mark of a running VERIFY of the bank, and of no other. The command moves its link's index as the WRITE of one
word does (log 7). -/
def Obligations.StagedBankWordIsTaken : Prop :=
  ∀ (s : State) (r : Req) (b : Bank) (off : Nat) (v : Word), takenFromOwner s r →
    (s.safeMode = true ∨ b ≠ s.active) → off < 79683 →
    let a := bankBase b + off
    (∀ src dst n done, s.slot = .copy src dst n done → dst ≤ a → a < dst + n →
      exec (.stagedBankWrite r b off v) s =
        .next (answered { s with tableIndex := s.tableIndex.put r.link a } r 0x02 .busy [0])) ∧
    ((∀ src dst n done, s.slot = .copy src dst n done → a < dst ∨ dst + n ≤ a) →
      exec (.stagedBankWrite r b off v) s = .next (answered
        { s with store := tset defaultStored s.store a ⟨v, false⟩, faultList := s.faultList.filter (· ≠ a),
                 verified := s.verified.put b false,
                 slot := match s.slot with
                   | .verify b' pass stale reads => .verify b' pass (if b' = b then true else stale) reads
                   | .empty => .empty
                   | .copy src dst n done => .copy src dst n done,
                 tableIndex := s.tableIndex.put r.link (a + 1) } r 0x02 .ok [1]))

/-! ## Show banks, patch hold and changeover -/

/-- R153, R154, R166: HOLD, DISCARD and APPLY. In safe mode each is refused with STATE (the number in the reply of the refused
APPLY is not stated and left open, log 4). APPLY writes every live table word from the shadow with good parity, and
answers how many differed or held a fault. -/
def Obligations.PatchHoldRequests : Prop :=
  ∀ (s : State) (r : Req), takenFromOwner s r →
    let n := ((List.range' 3 2624).filter fun off =>
      (stored s (bankBase s.active + off)).bad || (stored s (bankBase s.active + off)).val != shadowWord s off).length
    (s.safeMode = true → exec (.hold r) s = .next (answered s r 0x10 .state []) ∧
      exec (.discard r) s = .next (answered s r 0x12 .state []) ∧
      ∃ (w : Word) (m : Nat), exec (.apply r) s =
        .next (answered { s with freeDraws := m } r 0x11 .state (wordBytes w))) ∧
    (s.safeMode = false → exec (.hold r) s = .next (answered { s with patchHold := true } r 0x10 .ok []) ∧
      (∃ t, exec (.discard r) s = .next (answered t r 0x12 .ok []) ∧
        t = { s with patchHold := false, shadow := t.shadow } ∧
        ∀ off, 3 ≤ off → off < 2627 → shadowWord t off = (liveStored s off).val) ∧
      ∃ t, exec (.apply r) s = .next (answered t r 0x11 .ok (wordBytes (wordOf n))) ∧
        (∀ off, 3 ≤ off → off < 2627 → stored t (bankBase s.active + off) = ⟨shadowWord s off, false⟩) ∧
        (∀ a, a < bankBase s.active + 3 ∨ bankBase s.active + 2627 ≤ a → stored t a = stored s a) ∧
        (∀ a, a ∈ t.faultList ↔ a ∈ s.faultList ∧ (a < bankBase s.active + 3 ∨ bankBase s.active + 2627 ≤ a)) ∧
        t.verified = (if n = 0 then s.verified else s.verified.put s.active false) ∧
        t = { s with store := t.store, faultList := t.faultList, verified := t.verified, patchHold := false })

/-- R156: a COPY is decided by the first row that holds. -/
def Obligations.CopyIsDecided : Prop :=
  ∀ (s : State) (r : Req) (src dst count : Addr), takenFromOwner s r → 1 ≤ count.toNat → count.toNat ≤ 65536 →
    let n := count.toNat
    let inSource (a : Nat) : Prop := src.toNat ≤ a ∧ a < src.toNat + n
    let inDest (a : Nat) : Prop := dst.toNat ≤ a ∧ a < dst.toNat + n
    let inBank (b : Bank) (a : Nat) : Prop := bankBase b ≤ a ∧ a < bankBase b + 79683
    let refused (res : Result) : Host.Outcome State Fault Refusal := .next (answered s r 0x13 res [])
    let bad := 0x1000000 < src.toNat + n ∨ 0x1000000 < dst.toNat + n ∨ ∃ a, inSource a ∧ inDest a
    let unmapped_ := ∃ a, (inSource a ∨ inDest a) ∧ mapped a = false
    let active_ := s.safeMode = false ∧ ∃ a, inDest a ∧ inBank s.active a
    let outside := ∃ a, inDest a ∧ ¬ inBank .b0 a ∧ ¬ inBank .b1 a
    (bad → exec (.copy r src dst count) s = refused .badRequest) ∧
    (¬ bad → unmapped_ → exec (.copy r src dst count) s = refused .unmapped) ∧
    (¬ bad → ¬ unmapped_ → active_ → exec (.copy r src dst count) s = refused .activeBank) ∧
    (¬ bad → ¬ unmapped_ → ¬ active_ → outside → exec (.copy r src dst count) s = refused .readOnly) ∧
    (¬ bad → ¬ unmapped_ → ¬ active_ → ¬ outside → s.slot ≠ .empty → exec (.copy r src dst count) s = refused .busy) ∧
    (¬ bad → ¬ unmapped_ → ¬ active_ → ¬ outside → s.slot = .empty →
      ∃ t, exec (.copy r src dst count) s = .next (answered t r 0x13 .ok []) ∧
        t = { s with slot := .copy src.toNat dst.toNat n 0, verified := t.verified } ∧
        ∀ b, ((∃ a, inDest a ∧ inBank b a) → t.verified.get b = false) ∧
          ((∀ a, inDest a → ¬ inBank b a) → t.verified.get b = s.verified.get b))

/-- R157: one word copy of a running COPY, and its end after the last word or at a faulted source word, with its report; without a COPY in the
slot nothing happens (log 6). -/
def Obligations.CopyWordCopies : Prop :=
  ∀ s : State,
    (∀ src dst n done w, s.slot = .copy src dst n done → readTable s (src + done) = .value w → done + 1 < n →
      exec .copyWord s = .next { s with
        store := tset defaultStored s.store (dst + done) ⟨w, false⟩,
        faultList := s.faultList.filter (· ≠ dst + done), slot := .copy src dst n (done + 1) }) ∧
    (∀ src dst n done w, s.slot = .copy src dst n done → readTable s (src + done) = .value w → n ≤ done + 1 →
      exec .copyWord s = .next (offerReport { s with
        store := tset defaultStored s.store (dst + done) ⟨w, false⟩,
        faultList := s.faultList.filter (· ≠ dst + done), slot := .empty } (.opDone .copy .pass 0))) ∧
    (∀ src dst n done a, s.slot = .copy src dst n done → readTable s (src + done) = .fault a →
      exec .copyWord s = .next (offerReport { (offerFault s a) with slot := .empty } (.opDone .copy .fault a))) ∧
    ((∀ src dst n done, s.slot ≠ .copy src dst n done) → exec .copyWord s = .next s)

/-- R158: a VERIFY is decided by the first row that holds. -/
def Obligations.VerifyIsDecided : Prop :=
  ∀ (s : State) (r : Req) (n : Byte) (b : Bank), takenFromOwner s r → bankOf n = some b →
    if s.safeMode = false ∧ b = s.active then exec (.verify r n) s = .next (answered s r 0x14 .state [])
    else if s.slot ≠ .empty then exec (.verify r n) s = .next (answered s r 0x14 .busy [])
    else exec (.verify r n) s =
      .next (answered { s with slot := .verify b (.crc 2 0xFFFFFFFF) false 0 } r 0x14 .ok [])

/-- R158, R160, R172: a word read in the CRC pass: it enters the running CRC and the next word is due, or after the last one
the two declared words, the upper first (log 21); a faulted word, a declared one too, ends the VERIFY. Without a VERIFY in the slot nothing happens, the
model's choice (log 6). -/
def Obligations.VerifyWordReads : Prop :=
  ∀ s : State,
    let endsAtFault (b : Bank) (stale : Bool) (off : Nat) : Prop :=
      let res : OpResult := if stale then .stale else .fault
      let addr : Nat := if stale then 0 else bankBase b + off
      exec .verifyWord s = .next (offerReport { (offerFault s (bankBase b + off)) with
        slot := .empty, lastVerify := res, lastVerifyAddr := addr, verified := s.verified.put b false }
        (.opDone .verify res addr))
    (∀ b next crc stale reads w, s.slot = .verify b (.crc next crc) stale reads →
      readWord s (bankBase b + next) = some w →
      let pass : VerifyPass :=
        if next + 1 < 79683 then .crc (next + 1) (crc32Word crc w) else .declared (crc32Final (crc32Word crc w)) none
      exec .verifyWord s = .next { s with slot := .verify b pass stale (reads + 1) }) ∧
    (∀ b next crc stale reads, s.slot = .verify b (.crc next crc) stale reads →
      readWord s (bankBase b + next) = none → endsAtFault b stale next) ∧
    (∀ b crc stale reads w, s.slot = .verify b (.declared crc none) stale reads →
      readWord s (bankBase b) = some w →
      exec .verifyWord s = .next { s with slot := .verify b (.declared crc (some w)) stale (reads + 1) }) ∧
    (∀ b crc stale reads, s.slot = .verify b (.declared crc none) stale reads →
      readWord s (bankBase b) = none → endsAtFault b stale 0) ∧
    (∀ b crc u stale reads w, s.slot = .verify b (.declared crc (some u)) stale reads →
      readWord s (bankBase b + 1) = some w → u ++ w = crc →
      exec .verifyWord s = .next { s with slot := .verify b (.tables 0 .cueCount []) stale (reads + 1) }) ∧
    (∀ b crc u stale reads w, s.slot = .verify b (.declared crc (some u)) stale reads →
      readWord s (bankBase b + 1) = some w → u ++ w ≠ crc →
      let res : OpResult := if stale then .stale else .checksum
      exec .verifyWord s = .next (offerReport { s with
        slot := .empty, lastVerify := res, lastVerifyAddr := 0, verified := s.verified.put b false }
        (.opDone .verify res 0))) ∧
    (∀ b crc u stale reads, s.slot = .verify b (.declared crc (some u)) stale reads →
      readWord s (bankBase b + 1) = none → endsAtFault b stale 1) ∧
    ((∀ b pass stale reads, s.slot ≠ .verify b pass stale reads) → exec .verifyWord s = .next s)

/-- R49 to R52, R159, R160, R168: which banks the structure checks pass. An item fails at its offset: the cue count, a channel
table entry, a patch word, a region, and a loaded record by its head, its look, its uniqueness, its link target or its follow
cycle. The examination passes only where no item fails, fails only where one does, and meets a fault only at a faulted word;
words it does not read (declared CRC, records beyond the cue count, free pool entries) do not count. The structure pass of a
VERIFY, word by word, ends as the power-up check's examination of the same bank does: with PASS, with STRUCTURE and the address
of the lowest failing item, or with FAULT and the same address; with the stale mark set, with STALE and no address, a fault met
offered all the same. Each of its words leaves it running or ends it with its report. Which faulted word is met first is by
the order of reads of log 21; that of two loaded records with one stack and number the chain takes the lower is log 21 too. -/
def Obligations.VerifyAgreesWithPowerUpCheck : Prop :=
  ∀ (s : State) (b : Bank),
    let word (off : Nat) : Word := (stored s (bankBase b + off)).val
    let at_ (off : Nat) : Nat := (word off).toNat
    let count := at_ 2
    let rec_ (p i : Nat) : Nat := at_ (2627 + 12 * p + i)
    let flag (p i : Nat) : Bool := (word (2627 + 12 * p + 8)).getLsbD i
    let channel (p j : Nat) : Nat := at_ (14147 + 2 * (rec_ p 2 + j))
    let level (p j : Nat) : Nat := at_ (14147 + 2 * (rec_ p 2 + j) + 1)
    let headFails (p : Nat) : Prop := rec_ p 0 = 0 ∨ 16 < rec_ p 0 ∨ rec_ p 1 = 0 ∨ 64 ≤ rec_ p 8 ∨ 512 < rec_ p 3 ∨
      32767 < rec_ p 2 ∨ 32768 < rec_ p 2 + rec_ p 3
    let lookFails (p : Nat) : Prop := ∃ j < rec_ p 3, channel p j = 0 ∨ 512 < channel p j ∨ 255 < level p j ∨
      (0 < j ∧ channel p j ≤ channel p (j - 1))
    let twice (p : Nat) : Prop := ∃ q < p, rec_ q 0 = rec_ p 0 ∧ rec_ q 1 = rec_ p 1
    let noTarget (p : Nat) : Prop := flag p 5 = true ∧ ∀ q < count, ¬ (rec_ q 0 = rec_ p 0 ∧ rec_ q 1 = rec_ p 10)
    let next (p q : Nat) : Prop := q < count ∧ rec_ q 0 = rec_ p 0 ∧
      (flag p 5 = true → rec_ q 1 = rec_ p 10) ∧
      (flag p 5 = false → rec_ p 1 < rec_ q 1 ∧
        ∀ u < count, rec_ u 0 = rec_ p 0 → rec_ p 1 < rec_ u 1 → rec_ q 1 ≤ rec_ u 1) ∧
      ∀ u < q, ¬ (rec_ u 0 = rec_ q 0 ∧ rec_ u 1 = rec_ q 1)
    let cycles (p : Nat) : Prop := ∃ (n : Nat) (f : Nat → Nat), 0 < n ∧ f 0 = p ∧ f n = p ∧
      ∀ i < n, flag (f i) 4 = true ∧ rec_ (f i) 9 = 0 ∧ next (f i) (f (i + 1))
    let fails (off : Nat) : Prop :=
      (off = 2 ∧ 960 < count) ∨ (3 ≤ off ∧ off < 515 ∧ 4 ≤ at_ off) ∨
      (∃ c, 1 ≤ c ∧ c ≤ 1024 ∧ ((off = 513 + 2 * c ∧ 512 < at_ off) ∨ (off = 514 + 2 * c ∧ 255 < at_ off))) ∨
      (∃ r, 1 ≤ r ∧ r ≤ 8 ∧ off = 2555 + 8 * r ∧
        (at_ off = 0 ∨ 1024 < at_ off ∨ 1025 < at_ off + at_ (off + 1) ∨ 64 ≤ at_ (off + 2) ∨ 1024 < at_ (off + 4) ∨
          ((word (off + 2)).getLsbD 5 = true ∧ at_ (off + 4) = 0))) ∨
      ∃ p < count, off = 2627 + 12 * p ∧ (headFails p ∨ lookFails p ∨ twice p ∨ noTarget p ∨ cycles p)
    (examine s b = .pass → ∀ off, ¬ fails off) ∧ (examine s b = .fail → ∃ off, fails off) ∧
    (∀ off, examine s b = .fault off → (stored s (bankBase b + off)).bad = true) ∧
    ((∀ off, (2 ≤ off ∧ off < 2627 + 12 * count) ∨ (∃ p < count, ∃ j < 2 * rec_ p 3, off = 14147 + 2 * rec_ p 2 + j) →
      (stored s (bankBase b + off)).bad = false) → ∀ off, examine s b ≠ .fault off) ∧
    (∀ stale reads, s.slot = .verify b (.tables 0 .cueCount []) stale reads →
      ∃ n t, (fun u => match exec .verifyWord u with | .next v => v | _ => u)^[n] s = t ∧ t.slot = .empty ∧
        t.store = s.store ∧
        (stale = true → t.lastVerify = .stale ∧ t.lastVerifyAddr = 0 ∧ t.verified = s.verified.put b false) ∧
        (examine s b = .pass → t.faultList = s.faultList ∧ (stale = false →
          t.lastVerify = .pass ∧ t.lastVerifyAddr = 0 ∧ t.verified = s.verified.put b true)) ∧
        (examine s b = .fail → t.faultList = s.faultList ∧ (stale = false →
          t.lastVerify = .structFail ∧ t.verified = s.verified.put b false ∧
          ∃ off, fails off ∧ (∀ o < off, ¬ fails o) ∧ t.lastVerifyAddr = bankBase b + off)) ∧
        ∀ off, examine s b = .fault off → t.faultList = (offerFault s (bankBase b + off)).faultList ∧
          t.faultOverflow = (offerFault s (bankBase b + off)).faultOverflow ∧ (stale = false →
            t.lastVerify = .fault ∧ t.lastVerifyAddr = bankBase b + off ∧ t.verified = s.verified.put b false)) ∧
    ∀ count item got stale reads, s.slot = .verify b (.tables count item got) stale reads →
      ∃ t, exec .verifyWord s = .next t ∧
        ((∃ item' got' count' reads', t = { s with slot := .verify b (.tables count' item' got') stale reads' }) ∨
          ∃ u res addr, t = offerReport { u with
              slot := .empty, lastVerify := res, lastVerifyAddr := addr, verified := s.verified.put b (res == .pass) }
              (.opDone .verify res addr) ∧
            (stale = true → res = .stale ∧ addr = 0) ∧
            ((u = s ∧ (stale = false → (res = .pass ∧ addr = 0) ∨ res = .structFail)) ∨
              ∃ off, (stored s (bankBase b + off)).bad = true ∧ u = offerFault s (bankBase b + off) ∧
                (stale = false → res = .fault ∧ addr = bankBase b + off)))

/-- R161, R162, R79, R154: a SWITCH is refused by the first row that holds, changing nothing but its reply (whose held-edits
indication is 0, the model's choice, log 14); otherwise it is taken. Held edits are compared on stored values whatever their
parity, the model's choice (log 10). The SWITCHED report is shown where both return lines are sending, the queue has room, and
the words read for the stack index hold no fault. -/
def Obligations.SwitchIsDecided : Prop :=
  ∀ (s : State) (r : Req) (n : Byte) (b : Bank), takenFromOwner s r → bankOf n = some b →
    let refused (res : Result) : Host.Outcome State Fault Refusal := .next (answered s r 0x15 res [0])
    let live := ∃ p, (playbackAt s p).state = .fading ∨ (playbackAt s p).state = .paused ∨
      (playbackAt s p).state = .atCue ∨ (playbackAt s p).state = .releasing
    let held := s.safeMode = false ∧ s.patchHold = true ∧
      ∃ off, 3 ≤ off ∧ off < 2627 ∧ (liveStored s off).val ≠ shadowWord s off
    if s.safeMode = false ∧ b = s.active then exec (.switch r n) s = refused .state
    else if s.slot ≠ .empty then exec (.switch r n) s = refused .busy
    else if s.verified.get b = false then exec (.switch r n) s = refused .notVerified
    else (live → exec (.switch r n) s = refused .playbacksLive) ∧
      (¬ live → ∃ (t : State) (h : Bool), (h = true ↔ held) ∧
        exec (.switch r n) s = .next (answered t r 0x15 .ok [if h then 1 else 0]) ∧
        ((∀ x, s.tx.get x ≠ none) → s.reports.length < 32 →
          (∀ count, readWord s (bankBase b + 2) = some count → ∀ p < count.toNat,
            (stored s (bankBase b + 2627 + 12 * p)).bad = false ∧ (stored s (bankBase b + 2628 + 12 * p)).bad = false) →
          readWord s (bankBase b + 2) ≠ none →
          t.reports = s.reports ++ [⟨.switched b h, s.dropMark⟩] ∧ t.dropMark = false ∧ t.tx = s.tx) ∧
        t.active = b ∧ t.safeMode = false ∧ t.patchHold = false ∧ stored t selectionAddr = ⟨wordOf (bankCode b), false⟩ ∧
        (∀ a, a ≠ selectionAddr → stored t a = stored s a) ∧
        t.verified = (if s.safeMode then s.verified else s.verified.put (otherBank b) false) ∧
        (∀ off, 3 ≤ off → off < 2627 → shadowWord t off = (stored s (bankBase b + off)).val) ∧
        t = { s with active := b, safeMode := false, patchHold := false, store := t.store, shadow := t.shadow,
                     verified := t.verified, stackIndex := t.stackIndex, faultList := t.faultList,
                     faultOverflow := t.faultOverflow, reports := t.reports, dropMark := t.dropMark, tx := t.tx,
                     replies := t.replies })

/-- R44: the stack index that a taken SWITCH builds. Where the cue count is read without fault, each stack's list is in strictly
rising cue number and holds exactly the loaded records of the stack whose stack and cue number words hold no fault (no two of
which name one cue, as in a bank that passed its checks); a record with a faulted one is left out, and each faulted word's
address is listed, or finds the fault list full. Where the cue count is faulted, all sixteen lists are empty and its address is
offered. -/
def Obligations.SwitchBuildsStackIndex : Prop :=
  ∀ (s t : State) (r : Req) (n : Byte) (b : Bank), takenFromOwner s r → bankOf n = some b →
    (s.safeMode = true ∨ b ≠ s.active) → s.slot = .empty → s.verified.get b = true →
    (∀ p, (playbackAt s p).state = .unbound ∨ (playbackAt s p).state = .ready) →
    exec (.switch r n) s = .next t →
    let rec_ (p i : Nat) : StoredWord := stored s (bankBase b + 2627 + 12 * p + i)
    let read (p : Nat) : Prop := (rec_ p 0).bad = false ∧ (rec_ p 1).bad = false
    let offered (a : Nat) : Prop := a ∈ t.faultList ∨ (t.faultOverflow = true ∧ 16 ≤ t.faultList.length)
    (readWord s (bankBase b + 2) = none → (∀ st, stackList t st = []) ∧ offered (bankBase b + 2)) ∧
    ∀ count, readWord s (bankBase b + 2) = some count →
      (∀ p < count.toNat, ∀ i < 2, (rec_ p i).bad = true → offered (bankBase b + 2627 + 12 * p + i)) ∧
      ((∀ p < count.toNat, ∀ q < count.toNat, read p → read q →
          (rec_ p 0).val = (rec_ q 0).val → (rec_ p 1).val = (rec_ q 1).val → p = q) →
        ∀ st, 1 ≤ st → st ≤ 16 →
          (stackList t st).Pairwise (fun e f => e.cue < f.cue) ∧
          ∀ e, e ∈ stackList t st ↔ e.position < count.toNat ∧ read e.position ∧ (rec_ e.position 0).val.toNat = st ∧
            (rec_ e.position 1).val.toNat = e.cue)

/-! ## Output lines and the composition of a circuit -/

/-- R124 to R126: a line's step expiry: the period timer counts, and at its expiry an on-time frame starts or a start is
left pending; without a running timer nothing happens. PERIOD_TIMER_EXPIRY is the step expiry at which the timer
expires, and nothing at any other (log 6). -/
def Obligations.LineStepCounts : Prop :=
  ∀ (s : State) (k : LineNo),
    let l := lineAt s k
    let w := lineSettings s k
    (l.tx = .silent ∨ l.tx = .startPending ∨ l.tx = .stopping →
      exec (.lineStep k) s = .next s ∧ exec (.periodTimerExpiry k) s = .next s) ∧
    (l.tx = .waiting ∨ l.tx = .sending → l.timer + 1 < w.period →
      exec (.lineStep k) s = .next (setLine s k { l with timer := l.timer + 1 }) ∧
      exec (.periodTimerExpiry k) s = .next s) ∧
    (l.tx = .waiting → w.period ≤ l.timer + 1 → ∀ i ∈ [Instr.lineStep k, Instr.periodTimerExpiry k],
      exec i s = .next (setLine s k { l with
        tx := .sending, timer := 0, count := w.count, mode := w.mode, period := w.period, next := 0,
        sent := [0xE7, if w.mode = .coarse then 0x50 else 0x51, BitVec.ofNat 8 w.count] })) ∧
    (l.tx = .sending → w.period ≤ l.timer + 1 → ∃ n, ∀ i ∈ [Instr.lineStep k, Instr.periodTimerExpiry k],
      exec i s = .next (setLine s k { l with tx := .startPending, timer := n }))

/-- R127 to R130: a circuit of a line's frame. A composition that completes stores its level and sends it; one that a fault
ends sends the previous output, keeps it, and offers the faulted address. What a composition gives is
CircuitFollowsRegionAndPatch. The count of free values drawn is left open (log 4). Without a frame or with its circuits all
composed the command changes nothing, the model's choice (log 6). -/
def Obligations.CircuitIsComposedAndSent : Prop :=
  ∀ (s : State) (k : LineNo),
    let l := lineAt s k
    let c := 256 * k.val + l.next + 1
    let sending := l.tx = .sending ∨ l.tx = .startPending ∨ l.tx = .stopping
    let bytes (u : Nat) : List Byte :=
      if l.mode = .coarse then [BitVec.ofNat 8 ((u + 128) / 257)]
      else [BitVec.ofNat 8 (u / 256), BitVec.ofNat 8 u]
    (sending → l.next < l.count → ∀ u, compose s c l.period = .ok u → u.level ≤ 65535 →
      ∃ t, exec (.circuitComposition k) s = .next t ∧ previousOutput t c = u.level ∧
        (∀ d, d ≠ c → previousOutput t d = previousOutput s d) ∧
        lineAt t k = { l with next := l.next + 1, sent := l.sent ++ bytes u.level } ∧
        t = { s with prevOut := t.prevOut, lines := s.lines.set k (lineAt t k), freeDraws := t.freeDraws }) ∧
    (sending → l.next < l.count → ∀ a, compose s c l.period = .error a → previousOutput s c ≤ 65535 →
      ∃ n, exec (.circuitComposition k) s = .next (setLine { offerFault s a with freeDraws := n } k
        { l with next := l.next + 1, sent := l.sent ++ bytes (previousOutput s c) })) ∧
    (¬ sending ∨ l.count ≤ l.next → exec (.circuitComposition k) s = .next s)

/-- R93 to R96, R101, R103 to R105, R109, R110, R112 to R119: what the composition of a circuit gives. The governing region is the
lowest that covers the circuit, or none; a faulted word met in the search ends it. The composition ends at the first faulted
word in the order of R121 and R102 (within a row by log 22), and completes where no word read is faulted; a circuit whose
region's flags are faulted is neither protected nor not. A circuit of no region takes its patched
level; one of a parking region the park level; any other its own patched level, or by ECHO that of its source (0 past circuit
1,024), through the region's dimmer law, slew, preheat and limit. The patched level is 0 for channel 0, and otherwise the
merged level of the channel (MergeTakesHighestOrWinner), scaled by the grand master unless the channel is independent, and by
the proportion. A circuit is protected by its governing region alone. -/
def Obligations.CircuitFollowsRegionAndPatch : Prop :=
  ∀ (s : State) (c period : Nat), s.safeMode = false →
    let live (off : Nat) : Option Word := readWord s (bankBase s.active + off)
    let covered (r : Nat) : Prop := ∃ n b, live (2556 + 8 * r) = some n ∧ live (2555 + 8 * r) = some b ∧
      b.toNat ≤ c ∧ c < b.toNat + n.toNat
    let passed (r : Nat) : Prop := live (2556 + 8 * r) = some 0 ∨
      ∃ n b, live (2556 + 8 * r) = some n ∧ live (2555 + 8 * r) = some b ∧ (c < b.toNat ∨ b.toNat + n.toNat ≤ c)
    let scaled (l m : Nat) : Nat := (l * m + 127) / 255
    let at_ (off : Nat) : Nat := bankBase s.active + off
    let word (a : Nat) : Word := (stored s a).val
    let firstFault (as : List Nat) : Option Nat := as.find? fun a => (stored s a).bad
    let channelWords (ch : Nat) : List Nat :=
      let held := (List.finRange 16).filter fun p => (playbackAt s p).list.any (·.channel == ch)
      at_ (2 + ch) :: held.map (fun p => 0x2000 + 16 * p.val + 2) ++
        (if (word (at_ (2 + ch))).getLsbD 0 then held.map (fun p => 0x2000 + 16 * p.val + 1) ++ [7] else []) ++
        (if (word (at_ (2 + ch))).getLsbD 1 then [] else [8])
    let patchWords (src : Nat) : List Nat :=
      let ch := (word (at_ (513 + 2 * src))).toNat
      [at_ (513 + 2 * src), at_ (514 + 2 * src)] ++ (if 1 ≤ ch ∧ ch ≤ 512 then channelWords ch else [])
    let patched (src v : Nat) : Prop := ∃ ch prop, live (513 + 2 * src) = some ch ∧ live (514 + 2 * src) = some prop ∧
      ((ch = 0 ∧ v = 0) ∨ (1 ≤ ch.toNat ∧ ch.toNat ≤ 512 ∧ prop.toNat ≤ 255 ∧
        ∃ entry m, live (2 + ch.toNat) = some entry ∧ mergedLevel s ch.toNat (entry.getLsbD 0) = .ok m ∧
          ((entry.getLsbD 1 = true ∧ v = scaled m prop.toNat) ∨
            (entry.getLsbD 1 = false ∧ ∃ gm, readWord s 8 = some gm ∧ v = scaled (scaled m gm.toNat) prop.toNat))))
    (∀ r, 1 ≤ r → r ≤ 8 → (∀ q, 1 ≤ q → q < r → passed q) →
      (covered r → ∃ b, live (2555 + 8 * r) = some b ∧ governing s c = .ok (some (r, b.toNat))) ∧
      (live (2556 + 8 * r) = none → governing s c = .error (bankBase s.active + 2556 + 8 * r)) ∧
      (∀ n, live (2556 + 8 * r) = some n → n ≠ 0 → live (2555 + 8 * r) = none →
        governing s c = .error (bankBase s.active + 2555 + 8 * r))) ∧
    ((∀ r, 1 ≤ r → r ≤ 8 → passed r) → governing s c = .ok none) ∧
    (governing s c = .ok none → protectedCircuit s c = .ok false ∧
      (∀ v, patched c v → compose s c period = .ok ⟨v, false⟩) ∧
      (∀ a, firstFault (patchWords c) = some a → compose s c period = .error a) ∧
      (firstFault (patchWords c) = none → ∃ u, compose s c period = .ok u)) ∧
    (∀ a, governing s c = .error a → protectedCircuit s c = .error a ∧ compose s c period = .error a) ∧
    (∀ r base, governing s c = .ok (some (r, base)) →
      let flags := word (at_ (2557 + 8 * r))
      let src := (word (at_ (2559 + 8 * r))).toNat + (c - base)
      let front : List Nat := at_ (2557 + 8 * r) ::
        if flags.getLsbD 3 then [at_ (2558 + 8 * r)]
        else if flags.getLsbD 5 then at_ (2559 + 8 * r) :: (if 1 ≤ src ∧ src ≤ 1024 then patchWords src else [])
        else patchWords c
      let back (v : Nat) : List Nat :=
        (if flags.toNat % 8 = 0 then []
          else [0x3000 + 33 * (flags.toNat % 8) + v / 2048, 0x3000 + 33 * (flags.toNat % 8) + v / 2048 + 1]) ++
        [at_ (2562 + 8 * r), at_ (2560 + 8 * r), at_ (2561 + 8 * r)]
      (live (2557 + 8 * r) = none → protectedCircuit s c = .error (at_ (2557 + 8 * r))) ∧
      (∀ a, firstFault front = some a → compose s c period = .error a) ∧
      (firstFault front = none → flags.getLsbD 3 = false → ∃ v,
        (∀ v', (flags.getLsbD 5 = false ∧ patched c v' ∨ flags.getLsbD 5 = true ∧ (1024 < src ∧ v' = 0 ∨
          1 ≤ src ∧ src ≤ 1024 ∧ patched src v')) → v' = v) ∧
        (∀ a, firstFault (back v) = some a → compose s c period = .error a) ∧
        (firstFault (back v) = none → ∃ u, compose s c period = .ok u))) ∧
    (∀ r base flags, governing s c = .ok (some (r, base)) → live (2557 + 8 * r) = some flags →
      protectedCircuit s c = .ok (flags.getLsbD 4) ∧
      (∀ park, flags.getLsbD 3 = true → live (2558 + 8 * r) = some park → compose s c period = .ok ⟨park.toNat, false⟩) ∧
      (∀ v u response preheat limit, flags.getLsbD 3 = false →
        (flags.getLsbD 5 = false ∧ patched c v ∨
          flags.getLsbD 5 = true ∧ ∃ e, live (2559 + 8 * r) = some e ∧
            (1024 < e.toNat + (c - base) ∧ v = 0 ∨ 1 ≤ e.toNat + (c - base) ∧ e.toNat + (c - base) ≤ 1024 ∧
              patched (e.toNat + (c - base)) v)) →
        (flags.toNat % 8 = 0 ∧ u = v ∨
          1 ≤ flags.toNat % 8 ∧ ∃ y0 y1, readWord s (0x3000 + 33 * (flags.toNat % 8) + v / 2048) = some y0 ∧
            readWord s (0x3000 + 33 * (flags.toNat % 8) + v / 2048 + 1) = some y1 ∧
            (y0.toNat ≤ y1.toNat ∧ u = y0.toNat + (y1.toNat - y0.toNat) * (v % 2048) / 2048 ∨
              y1.toNat < y0.toNat ∧ u = y0.toNat - (y0.toNat - y1.toNat) * (v % 2048) / 2048)) →
        live (2562 + 8 * r) = some response → live (2560 + 8 * r) = some preheat → live (2561 + 8 * r) = some limit →
        let delta := min 65535 (response.toNat * period)
        let slewed := if response = 0 then u
          else min (min 65535 (previousOutput s c + delta)) (max (previousOutput s c - delta) u)
        compose s c period = .ok ⟨min limit.toNat (max preheat.toNat slewed), false⟩))

/-- R117 to R120: for a circuit that is neither parked nor held, the level lies between min(preheat, limit) and limit of its
governing region, and where it does not stand at the preheat or the limit it is within the slew allowance of the
previous output. -/
def Obligations.RegionBoundsLevel : Prop :=
  ∀ (s : State) (c period r base : Nat) (flags preheat limit response : Word) (u : Composed),
    governing s c = .ok (some (r, base)) → needLive s (regionOff r + 2) = .ok flags → regionPark flags = false →
    needLive s (regionOff r + 5) = .ok preheat → needLive s (regionOff r + 6) = .ok limit →
    needLive s (regionOff r + 7) = .ok response → compose s c period = .ok u →
    min preheat.toNat limit.toNat ≤ u.level ∧ u.level ≤ limit.toNat ∧
    (response ≠ 0 → u.level ≠ preheat.toNat → u.level ≠ limit.toNat → previousOutput s c ≤ 65535 →
      u.level ≤ previousOutput s c + min 65535 (response.toNat * period) ∧
      previousOutput s c ≤ u.level + min 65535 (response.toNat * period))

/-- R106, R107, R110, R101, R103: in safe mode circuit c of 1 to 512 is the console contribution of channel c, where no
playback holds it, scaled by the grand master (a faulted one ends the composition, R102), and circuits above 512 are at 0. -/
def Obligations.SafeModeIsOneToOne : Prop :=
  ∀ (s : State) (c period : Nat) (gm : Word), s.safeMode = true → 1 ≤ c →
    (c ≤ 512 → (∀ p, entryFor (playbackAt s p).list c = none) → readWord s 8 = some gm →
      compose s c period = .ok ⟨(contribution s c * gm.toNat + 127) / 255, false⟩) ∧
    (c ≤ 512 → (∀ p, entryFor (playbackAt s p).list c = none) → readWord s 8 = none → compose s c period = .error 8) ∧
    (512 < c → compose s c period = .ok ⟨0, false⟩)

/-- R97, R98: the merged level of a channel. HTP: the largest of the console contribution and the contributions of the playbacks
holding it, whatever the priorities, the console priority and the take order. LTP: the console contribution where no
playback holds it or the console priority is above every holding playback's; otherwise the contribution of one playback,
of the highest priority, latest in the take order among those of that priority. -/
def Obligations.MergeTakesHighestOrWinner : Prop :=
  ∀ (s : State) (ch : Nat) (m pr : PlaybackNo → Word) (cp : Word),
    let holds (p : PlaybackNo) : Prop := (playbackAt s p).list.any (·.channel == ch) = true
    let given (p : PlaybackNo) : Nat := (heldLevel s p ch * (m p).toNat + 127) / 255
    (∀ p, holds p → readWord s (0x2000 + 16 * p.val + 2) = some (m p)) →
    (∃ level, mergedLevel s ch false = .ok level ∧ contribution s ch ≤ level ∧ (∀ p, holds p → given p ≤ level) ∧
      (level = contribution s ch ∨ ∃ p, holds p ∧ level = given p)) ∧
    ((∀ p, holds p → readWord s (0x2000 + 16 * p.val + 1) = some (pr p)) → readWord s 7 = some cp →
      s.takeOrder.Nodup → (∀ p, holds p → p ∈ s.takeOrder) →
      ((∀ p, holds p → (pr p).toNat < cp.toNat) → mergedLevel s ch true = .ok (contribution s ch)) ∧
      ∀ p, holds p → cp.toNat ≤ (pr p).toNat →
        (∀ q, holds q → q ≠ p → (pr q).toNat < (pr p).toNat ∨
          ((pr q).toNat = (pr p).toNat ∧ s.takeOrder.idxOf q < s.takeOrder.idxOf p)) →
        mergedLevel s ch true = .ok (given p))

/-- R124, R126, R131, R132: the end of a frame, whose CRC-16 covers what follows the sync byte. The line waits, falls silent,
or starts its pending frame late. Before its circuits are all composed a frame does not end, and the command changes nothing
there, the model's choice (log 6). The bytes of the frame and of the last whole one are kept to be seen (log 19). -/
def Obligations.FrameEnds : Prop :=
  ∀ (s : State) (k : LineNo),
    let l := lineAt s k
    let w := lineSettings s k
    let done : Line := { l with
      last := l.sent ++ [BitVec.ofNat 8 ((crc16 l.sent.tail).toNat / 256), BitVec.ofNat 8 (crc16 l.sent.tail).toNat],
      sent := [] }
    (l.tx = .sending → l.count ≤ l.next → exec (.endOfFrame k) s = .next (setLine s k { done with tx := .waiting })) ∧
    (l.tx = .stopping → l.count ≤ l.next → exec (.endOfFrame k) s = .next (setLine s k { done with tx := .silent })) ∧
    (l.tx = .startPending → l.count ≤ l.next → exec (.endOfFrame k) s = .next (setLine s k { done with
      tx := .sending, timer := 0, late := min 65535 (l.late + 1), count := w.count, mode := w.mode,
      period := w.period, next := 0,
      sent := [0xE7, if w.mode = .coarse then 0x50 else 0x51, BitVec.ofNat 8 w.count] })) ∧
    (l.tx = .silent ∨ l.tx = .waiting ∨ l.next < l.count → exec (.endOfFrame k) s = .next s)

/-! ## Playbacks and the fade engine -/

/-- R60 to R63: what a fade set-up makes of each channel's entry, for a list and a look in ascending channel order, and of the
playback's other fields. An entry starts at its current level (0 where it has none); its target is the look's, or 0 in BLOCK,
or its own. A part with no entry, or with delay and time 0, is DONE; one with a delay is in DELAY, any other RUNNING. The
times, delays and profile are the cue's, or the time that a BACK or a GOTO gives, a BACK with LINEAR. The level field of a
fading entry, which nothing reads, is the model's choice (log 26). -/
def Obligations.SetUpAimsEveryChannel : Prop :=
  ∀ (pb : Playback) (d : CueData) (e : IndexEntry) (by_ : TakenBy) (ch : Nat), playbackOk pb →
    d.look.Pairwise (fun x y => x.1 < y.1) →
    let new := setUp pb d e by_
    let old := entryFor pb.list ch
    let cur : Nat := match old with | some o => currentLevel pb o | none => 0
    let target? : Option Nat :=
      match d.look.find? (·.1 == ch), old with
      | some l, _ => some (257 * l.2)
      | none, none => none
      | none, some o => some (if d.block then 0 else match o.fade with | some f => f.target | none => o.level)
    new.list.Pairwise (fun x y => x.channel < y.channel) ∧
    (entryFor new.list ch =
      match target? with
      | none => none
      | some t =>
        if cur < t then some ⟨ch, cur, some ⟨cur, t, .up⟩⟩
        else if t < cur then some ⟨ch, cur, some ⟨cur, t, .down⟩⟩
        else if t = 0 then none else some ⟨ch, t, none⟩) ∧
    new.state = .fading ∧ new.follow = none ∧
    new.cue = some { number := e.cue, position := e.position, report := d.report, follow := d.follow, label := d.label } ∧
    new.profile = (match by_ with | .cue | .timed _ => d.profile | .back _ => .linear) ∧
    ∀ part : PartName,
      let time : Nat := match by_, part with
        | .cue, .up => d.upTime
        | .cue, .down => d.downTime
        | .back t, _ | .timed t, _ => t
      let delay : Nat := match by_, part with
        | .cue, .up => d.upDelay
        | .cue, .down => d.downDelay
        | .back _, _ | .timed _, _ => 0
      let assigned := ∃ en ∈ new.list, ∃ f, en.fade = some f ∧ f.part = part
      (¬ assigned → partOf new part = ⟨.done, 0, 0, time⟩) ∧
      (assigned → 0 < delay → partOf new part = ⟨.delay, delay, 0, time⟩) ∧
      (assigned → delay = 0 → 0 < time → partOf new part = ⟨.running, 0, 0, time⟩) ∧
      (assigned → delay = 0 → time = 0 → partOf new part = ⟨.done, 0, 0, 0⟩)

/-- R58, R80, R82 to R84: the current level of an entry: its level at rest, and otherwise the fade level formula, with the fraction
of its part by the part's phase and counts and the weight under the playback's profile; and the level a playback gives a
channel, 0 where it holds none. The set-up of a cue whose parts each have a delay or a time leaves that level as it was just
before, whatever the set-up interrupts. -/
def Obligations.SetUpDoesNotJump : Prop :=
  (∀ (pb : Playback) (e : Entry), currentLevel pb e =
    match e.fade with
    | none => e.level
    | some f =>
      let part := match f.part with | .up => pb.up | .down => pb.down
      let q := match part.phase with
        | .delay => 0
        | .running => if part.time = 0 ∨ part.time ≤ part.elapsed then 4096 else part.elapsed * 4096 / part.time
        | .done => 4096
      let w := match pb.profile with
        | .linear => q
        | .smooth => q ^ 2 * (12288 - 2 * q) / 16777216
        | .easeIn => q ^ 2 / 4096
        | .easeOut => 4096 - (4096 - q) ^ 2 / 4096
      if f.start ≤ f.target then f.start + (f.target - f.start) * w / 4096
      else f.start - (f.start - f.target) * w / 4096) ∧
  ∀ (s : State) (p : PlaybackNo) (ch : Nat), playbackOk (playbackAt s p) →
    (∀ e ∈ (playbackAt s p).list, e.channel = ch → heldLevel s p ch = currentLevel (playbackAt s p) e) ∧
    ((∀ e ∈ (playbackAt s p).list, e.channel ≠ ch) → heldLevel s p ch = 0) ∧
    ∀ (e : IndexEntry) (d : CueData) (by_ : TakenBy), d.look.Pairwise (fun x y => x.1 < y.1) →
      (match by_ with
        | .cue => (d.upTime ≠ 0 ∨ d.upDelay ≠ 0) ∧ (d.downTime ≠ 0 ∨ d.downDelay ≠ 0)
        | .back t | .timed t => t ≠ 0) →
      heldLevel (afterSetUp s p e d by_) p ch = heldLevel s p ch

/-- R40, R45 to R48, R59, R62 to R64, R67 to R69: the lookups over a stack's list (in rising cue number, as SwitchBuildsStackIndex
states): the first, the named, the previous and the next cue; the next one is by the link where LINK is present, and a faulted
flags or link word ends its lookup. A cue start reads the twelve words of the record and then its look: it gives their values,
or the addresses of all faulted ones (where the look's place is faulted the look is not read, the model's choice, log 12). A GO,
BACK or GOTO that finds and reads its cue is taken: the fade is set up with the timing of R63 (SetUpAimsEveryChannel), the
playback goes to the end of the take order or leaves it where its list is empty, and the fade is completed at once where both
parts are DONE; there a follow of time 0 expires within the command (R65, `cueSettles`: a chain of follows that ends, log 5). -/
def Obligations.CueCommandsTakeTheirCue : Prop :=
  ∀ s : State,
    (∀ st n : Nat,
      let l := stackList s st
      l.Pairwise (fun e f => e.cue < f.cue) →
      (∀ e, firstCue s st = some e ↔ e ∈ l ∧ ∀ f ∈ l, e.cue ≤ f.cue) ∧
      (∀ e, namedCue s st n = some e ↔ e ∈ l ∧ e.cue = n) ∧
      (∀ e, previousCue s st n = some e ↔ e ∈ l ∧ e.cue < n ∧ ∀ f ∈ l, f.cue < n → f.cue ≤ e.cue) ∧
      ∀ pos : Nat,
        let a := bankBase s.active + 2627 + 12 * pos
        (readWord s (a + 8) = none → nextCue s st n pos = .fault (a + 8)) ∧
        (∀ w, readWord s (a + 8) = some w → w.getLsbD 5 = true →
          (readWord s (a + 10) = none → nextCue s st n pos = .fault (a + 10)) ∧
          ∀ link, readWord s (a + 10) = some link → nextCue s st n pos = .found (namedCue s st link.toNat)) ∧
        (∀ w, readWord s (a + 8) = some w → w.getLsbD 5 = false →
          (∀ e, nextCue s st n pos = .found (some e) ↔ e ∈ l ∧ n < e.cue ∧ ∀ f ∈ l, n < f.cue → e.cue ≤ f.cue) ∧
          (nextCue s st n pos = .found none ↔ ∀ f ∈ l, f.cue ≤ n))) ∧
    (∀ pos : Nat,
      let a := bankBase s.active + 2627 + 12 * pos
      let pool (o : Word) : Nat := bankBase s.active + 14147 + 2 * o.toNat
      let record := (List.range 12).map (a + ·)
      let faulted (as : List Nat) : List Nat := as.filter fun x => (readWord s x).isNone
      (∀ w v : Nat → Word, (∀ i < 12, readWord s (a + i) = some (w i)) →
        (∀ j < 2 * (w 3).toNat, readWord s (pool (w 2) + j) = some (v j)) →
        readCue s pos = .ok {
          upTime := (w 4).toNat, upDelay := (w 5).toNat, downTime := (w 6).toNat, downDelay := (w 7).toNat,
          profile := if (w 8).toNat % 4 = 0 then .linear else if (w 8).toNat % 4 = 1 then .smooth
            else if (w 8).toNat % 4 = 2 then .easeIn else .easeOut,
          block := (w 8).getLsbD 2, report := (w 8).getLsbD 3,
          follow := if (w 8).getLsbD 4 then some (w 9).toNat else none, label := w 11,
          look := (List.range (w 3).toNat).map fun j => ((v (2 * j)).toNat, (v (2 * j + 1)).toNat) }) ∧
      (readWord s (a + 2) = none ∨ readWord s (a + 3) = none → readCue s pos = .error (faulted record)) ∧
      ∀ o l, readWord s (a + 2) = some o → readWord s (a + 3) = some l →
        let bad := faulted (record ++ (List.range (2 * l.toNat)).map (pool o + ·))
        bad ≠ [] → readCue s pos = .error bad) ∧
    ∀ (r : Req) (pb : Byte) (p : PlaybackNo) (st : Word) (e : IndexEntry) (d : CueData), takenFromOwner s r →
      s.followStuck = false → playbackOf pb = some p → boundStack s p = some st → readCue s e.position = .ok d →
      let state := (playbackAt s p).state
      let inCue := state = .fading ∨ state = .paused ∨ state = .atCue
      let takes (i : Instr) (code : Byte) (by_ : TakenBy) : Prop :=
        (d.follow ≠ some 0 → exec i s = .next (answered (afterCue s p e d by_) r code .ok [])) ∧
        (partsDone (playbackAt (afterSetUp s p e d by_) p) = false →
          exec i s = .next (answered (afterSetUp s p e d by_) r code .ok [])) ∧
        ∀ v, cueSettles p chainCues (afterSetUp s p e d by_) v → exec i s = .next (answered v r code .ok [])
      (∀ by_, let t := afterSetUp s p e d by_
        t.takeOrder = s.takeOrder.filter (· ≠ p) ++ (if (playbackAt t p).list = [] then [] else [p])) ∧
      (state = .ready ∨ state = .releasing → firstCue s st.toNat = some e → takes (.go r pb) 0x30 .cue) ∧
      (∀ c, inCue → (playbackAt s p).cue = some c → nextCue s st.toNat c.number c.position = .found (some e) →
        takes (.go r pb) 0x30 .cue) ∧
      (∀ c t, inCue → (playbackAt s p).cue = some c → previousCue s st.toNat c.number = some e →
        readWord s (0x2000 + 16 * p.val + 3) = some t → takes (.back r pb) 0x31 (.back t.toNat)) ∧
      (∀ n : Word, state ≠ .unbound → n ≠ 0 → namedCue s st.toNat n.toNat = some e →
        takes (.goto r pb n none) 0x32 .cue ∧ ∀ t : Word, takes (.goto r pb n (some t)) 0x32 (.timed t.toNat))

/-- R46, R48, R67 to R69, R74: a GO, BACK or GOTO that is refused changes nothing but its reply and, for FAULT, the fault list.
FAULT: the bound stack, the words of the next-cue lookup, the back time, and the record and look of the cue start; the words
are met in the order of log 12, and with it the order in which the faulted ones of a cue start are offered. That a GOTO of cue
number 0 in UNBOUND is refused with UNBOUND is the model's choice too (log 12). -/
def Obligations.CueCommandsAreRefused : Prop :=
  ∀ (s : State) (r : Req) (pb : Byte) (p : PlaybackNo), takenFromOwner s r → s.followStuck = false →
    playbackOf pb = some p →
    let state := (playbackAt s p).state
    let inCue := state = .fading ∨ state = .paused ∨ state = .atCue
    let no (code : Byte) (res : Result) : Host.Outcome State Fault Refusal := .next (answered s r code res [])
    let faulted (code : Byte) (bad : List Nat) : Host.Outcome State Fault Refusal :=
      .next (answered (offerFaults s bad) r code .fault [])
    (state = .unbound → exec (.go r pb) s = no 0x30 .unbound ∧ ∀ n t, exec (.goto r pb n t) s = no 0x32 .unbound) ∧
    (¬ inCue → exec (.back r pb) s = no 0x31 .state) ∧
    (state ≠ .unbound → ∀ t, exec (.goto r pb 0 t) s = no 0x32 .noCue) ∧
    (∀ st, boundStack s p = some st →
      (state = .ready ∨ state = .releasing →
        (firstCue s st.toNat = none → exec (.go r pb) s = no 0x30 .noCue) ∧
        ∀ e bad, firstCue s st.toNat = some e → readCue s e.position = .error bad → exec (.go r pb) s = faulted 0x30 bad) ∧
      (∀ c, inCue → (playbackAt s p).cue = some c →
        (nextCue s st.toNat c.number c.position = .found none → exec (.go r pb) s = no 0x30 .endOfStack) ∧
        (∀ a, nextCue s st.toNat c.number c.position = .fault a → exec (.go r pb) s = faulted 0x30 [a]) ∧
        (∀ e bad, nextCue s st.toNat c.number c.position = .found (some e) → readCue s e.position = .error bad →
          exec (.go r pb) s = faulted 0x30 bad) ∧
        (previousCue s st.toNat c.number = none → exec (.back r pb) s = no 0x31 .endOfStack) ∧
        ∀ e, previousCue s st.toNat c.number = some e →
          (readWord s (0x2000 + 16 * p.val + 3) = none → exec (.back r pb) s = faulted 0x31 [0x2000 + 16 * p.val + 3]) ∧
          ∀ t bad, readWord s (0x2000 + 16 * p.val + 3) = some t → readCue s e.position = .error bad →
            exec (.back r pb) s = faulted 0x31 bad) ∧
      (∀ n t, state ≠ .unbound → namedCue s st.toNat n.toNat = none → exec (.goto r pb n t) s = no 0x32 .noCue) ∧
      (∀ (n : Word) t e bad, state ≠ .unbound → n ≠ 0 → namedCue s st.toNat n.toNat = some e →
        readCue s e.position = .error bad → exec (.goto r pb n t) s = faulted 0x32 bad)) ∧
    (boundStack s p = none →
      (state ≠ .unbound → exec (.go r pb) s = faulted 0x30 [0x2000 + 16 * p.val] ∧
        ∀ (n : Word) t, n ≠ 0 → exec (.goto r pb n t) s = faulted 0x32 [0x2000 + 16 * p.val]) ∧
      (inCue → exec (.back r pb) s = faulted 0x31 [0x2000 + 16 * p.val]))

/-- R70: PAUSE and RESUME by the playback's state. -/
def Obligations.PauseAndResume : Prop :=
  ∀ (s : State) (r : Req) (pb : Byte) (p : PlaybackNo), takenFromOwner s r → playbackOf pb = some p →
    let old := playbackAt s p
    exec (.pause r pb) s = (
      if old.state = .fading then .next (answered (setPlayback s p { old with state := .paused }) r 0x33 .ok [])
      else if old.state = .atCue ∧ old.follow ≠ none then
        .next (answered (setPlayback s p { old with follow := none }) r 0x33 .ok [])
      else .next (answered s r 0x33 .state [])) ∧
    exec (.resume r pb) s = (
      if old.state = .paused then .next (answered (setPlayback s p { old with state := .fading }) r 0x34 .ok [])
      else .next (answered s r 0x34 .state []))

/-- R71, R72, R74: RELEASE. Every entry fades from its current level to 0 on the DOWN part over the release time; without a
level above 0 or with time 0 the release completes at once. The counts that the UP part keeps, the DOWN part's elapsed 0 and
the level field of a fading entry are the model's choice (log 26). -/
def Obligations.ReleaseIsTaken : Prop :=
  ∀ (s : State) (r : Req) (pb : Byte) (p : PlaybackNo) (t? : Option Word), takenFromOwner s r → playbackOf pb = some p →
    let old := playbackAt s p
    (old.state = .ready ∨ old.state = .unbound → exec (.release r pb t?) s = .next (answered s r 0x35 .ok [])) ∧
    (old.state ≠ .ready → old.state ≠ .unbound →
      (t? = none → readWord s (0x2000 + 16 * p.val + 4) = none →
        exec (.release r pb t?) s = .next (answered (offerFault s (0x2000 + 16 * p.val + 4)) r 0x35 .fault [])) ∧
      ∀ d, (t? = some d ∨ (t? = none ∧ readWord s (0x2000 + 16 * p.val + 4) = some d)) →
        let list := (old.list.filter fun e => 0 < currentLevel old e).map fun e =>
          (⟨e.channel, currentLevel old e, some ⟨currentLevel old e, 0, .down⟩⟩ : Entry)
        (list ≠ [] → d ≠ 0 → exec (.release r pb t?) s = .next (answered
          (setPlayback s p { old with
            state := .releasing, up := { old.up with phase := .done }, down := ⟨.running, 0, 0, d.toNat⟩,
            profile := .linear, follow := none, list := list }) r 0x35 .ok [])) ∧
        (list = [] ∨ d = 0 → exec (.release r pb t?) s = .next (answered
          { setPlayback s p { old with
              state := .ready, cue := none, up := { old.up with phase := .done }, down := ⟨.done, 0, 0, d.toNat⟩,
              profile := .linear, follow := none, list := [] } with
            takeOrder := s.takeOrder.filter (· ≠ p) } r 0x35 .ok [])))

/-- R64, R65, R75: a step expiry of the fade engine at which no playback completes, no follow expires and no key acts. Each
part of a fading playback advances, each follow counts, each key's stability timer counts, and nothing else changes.
PART_DELAY_END is such a step expiry where it ends the delay named, and nothing at any other (log 6). -/
def Obligations.FadeStepAdvances : Prop :=
  ∀ (s : State) (o : StepOrder), s.phase ≠ .inReset → s.followStuck = false → (∀ k, keyActs s k = false) →
    (∀ p, staysAtStep (playbackAt s p) = true) →
    ∃ t, exec (.fadeStep o) s = .next t ∧ t = { s with playbacks := t.playbacks, panel := t.panel } ∧
      (∀ k, keyState t.panel k = steppedKey (keyState s.panel k)) ∧
      (∀ p, let old := playbackAt s p
        let new := playbackAt t p
        (old.state = .unbound ∨ old.state = .ready ∨ old.state = .paused → new = old) ∧
        (old.state = .atCue → new = { old with follow := old.follow.map (· - 1) }) ∧
        (old.state = .fading ∨ old.state = .releasing → new = { old with up := new.up, down := new.down } ∧
          ∀ part, let f := partOf old part
            (f.phase = .done → partOf new part = f) ∧
            (f.phase = .delay → 2 ≤ f.delay → partOf new part = { f with delay := f.delay - 1 }) ∧
            (f.phase = .delay → f.delay ≤ 1 → partOf new part =
              { f with phase := if f.time = 0 then .done else .running, delay := 0, elapsed := 0 }) ∧
            (f.phase = .running → f.elapsed + 1 < f.time → partOf new part = { f with elapsed := f.elapsed + 1 }) ∧
            (f.phase = .running → f.time ≤ f.elapsed + 1 →
              partOf new part = { f with phase := .done, elapsed := f.time }))) ∧
      ∀ p part, let old := playbackAt s p
        if (old.state = .fading ∨ old.state = .releasing) ∧ (partOf old part).phase = .delay ∧
            (partOf old part).delay ≤ 1 then
          exec (.partDelayEnd p part o) s = .next t
        else exec (.partDelayEnd p part o) s = .next s

/-- R64, R66, R72: the step expiry that completes a playback, the others neither completing nor following and no key acting. A
cue: every entry rests at its target and those at 0 leave, the playback is AT_CUE with its follow time, and CUE_DONE is
offered where the cue has REPORT set (shown where the owner's line is sending and the queue has room). A release: the playback is READY with no cue and no entries and leaves the take
order, and nothing is reported. At any other step expiry CUE_COMPLETION and RELEASE_COMPLETION are nothing (log 6). The same effects of
completion from any state, where `complete` gives them. Where several playbacks complete or follow at one step expiry, each
takes its turn in ascending number, on the state that the lower ones leave (`stepTakes`), so that the lower one's CUE_DONE is
offered first; each of their commands is that step expiry. -/
def Obligations.CueAndReleaseComplete : Prop :=
  (∀ (u : State) (p : PlaybackNo),
    let pb := playbackAt u p
    ∃ l, (∀ e, e ∈ l ↔ e.fade = none ∧ e.level ≠ 0 ∧
        ∃ f ∈ pb.list, f.channel = e.channel ∧ e.level = (match f.fade with | some g => g.target | none => f.level)) ∧
      let w : State := { setPlayback u p { pb with state := .atCue, follow := pb.cue.bind (·.follow), list := l } with
        takeOrder := if l = [] then u.takeOrder.filter (· ≠ p) else u.takeOrder }
      complete u p = match pb.cue with
        | some c => if c.report then offerReport w (.cueDone p c.number c.label) else w
        | none => w) ∧
  (∀ (s : State) (o : StepOrder) (f : Nat → State), s.phase ≠ .inReset → s.followStuck = false →
    (∀ k, keyActs s k = false) →
    f 0 = { s with panel := steppedPanel s.panel, playbacks := Vector.ofFn fun q => advancedPlayback (playbackAt s q) } →
    (∀ q : PlaybackNo, stepTakes (playbackAt s q) q (f q.val) (f (q.val + 1))) →
    exec (.fadeStep o) s = .next (f 16) ∧
    ∀ q, staysAtStep (playbackAt s q) = false →
      ((playbackAt s q).state = .fading → exec (.cueCompletion q o) s = .next (f 16)) ∧
      ((playbackAt s q).state = .releasing → exec (.releaseCompletion q o) s = .next (f 16)) ∧
      ((playbackAt s q).state = .atCue → exec (.followExpiry q o) s = .next (f 16))) ∧
  ∀ (s : State) (p : PlaybackNo) (o : StepOrder), s.phase ≠ .inReset → s.followStuck = false →
    let old := playbackAt s p
    (old.state ≠ .fading ∨ partsDone (advanceParts old) = false → exec (.cueCompletion p o) s = .next s) ∧
    (old.state = .fading → partsDone (advanceParts old) = true → old.cue.bind (·.follow) ≠ some 0 →
      (∀ k, keyActs s k = false) → (∀ q, q ≠ p → staysAtStep (playbackAt s q) = true) →
      ∃ t, exec (.cueCompletion p o) s = .next t ∧ exec (.fadeStep o) s = .next t ∧
        (∀ e, e ∈ (playbackAt t p).list ↔ e.fade = none ∧ e.level ≠ 0 ∧
          ∃ f ∈ old.list, f.channel = e.channel ∧ e.level = (match f.fade with | some g => g.target | none => f.level)) ∧
        playbackAt t p = { old with
          state := .atCue, up := advancePart old.up, down := advancePart old.down,
          follow := old.cue.bind (·.follow), list := (playbackAt t p).list } ∧
        (∀ q, q ≠ p → playbackAt t q = steppedPlayback (playbackAt s q)) ∧ t.panel = steppedPanel s.panel ∧
        t.takeOrder = (if (playbackAt t p).list = [] then s.takeOrder.filter (· ≠ p) else s.takeOrder) ∧
        ((∀ c, old.cue = some c → c.report = false) → t.reports = s.reports ∧ t.dropMark = s.dropMark ∧ t.tx = s.tx) ∧
        (∀ c, old.cue = some c → c.report = true → s.tx.get s.arb.owner ≠ none → s.reports.length < 32 →
          t.reports = s.reports ++ [⟨.cueDone p c.number c.label, s.dropMark⟩] ∧ t.dropMark = false ∧ t.tx = s.tx) ∧
        t = { s with playbacks := t.playbacks, panel := t.panel, takeOrder := t.takeOrder, reports := t.reports,
                     dropMark := t.dropMark, tx := t.tx, replies := t.replies }) ∧
    (old.state ≠ .releasing ∨ partsDone (advanceParts old) = false → exec (.releaseCompletion p o) s = .next s) ∧
    (old.state = .releasing → partsDone (advanceParts old) = true →
      (∀ k, keyActs s k = false) → (∀ q, q ≠ p → staysAtStep (playbackAt s q) = true) →
      ∃ t, exec (.releaseCompletion p o) s = .next t ∧ exec (.fadeStep o) s = .next t ∧
        playbackAt t p = { advanceParts old with state := .ready, cue := none, list := [] } ∧
        (∀ q, q ≠ p → playbackAt t q = steppedPlayback (playbackAt s q)) ∧
        t = { s with playbacks := t.playbacks, panel := steppedPanel s.panel,
                     takeOrder := s.takeOrder.filter (· ≠ p) })

/-- R65, R66, R74: the step expiry at which a follow expires, the other playbacks neither completing nor following and no key acting:
the next cue is taken, as a GO takes it; without one the playback stays AT_CUE with no follow; and at a parity fault (of the
bound stack, of the next-cue lookup, or of the cue start) it stays so too, and the faulted address is offered. At any other
step expiry FOLLOW_EXPIRY is nothing (log 6). Where a cue with follow time 0 completes, the follow expires within the
completion, after the cue's own report, and has the same outcomes, on the completed playback; so does a cue taken with follow
time 0 that is complete at once (`cueSettles`: a chain of follows that ends, log 5). Of two follows at one step expiry the
higher playback's comes later (CueAndReleaseComplete). The words are met in the order of log 12. -/
def Obligations.FollowTakesNextCue : Prop :=
  ∀ (s : State) (p : PlaybackNo) (o : StepOrder), s.phase ≠ .inReset → s.followStuck = false →
    let old := playbackAt s p
    let stepped (pb : Playback) : State := { s with
      panel := steppedPanel s.panel,
      playbacks := Vector.ofFn fun q => if q = p then pb else steppedPlayback (playbackAt s q) }
    let follows (i : Instr) (u : State) (c : CueRef) : Prop :=
      (boundStack s p = none → exec i s = .next (offerFault u (0x2000 + 16 * p.val))) ∧
      ∀ st, boundStack s p = some st →
        (nextCue s st.toNat c.number c.position = .found none → exec i s = .next u) ∧
        (∀ a, nextCue s st.toNat c.number c.position = .fault a → exec i s = .next (offerFault u a)) ∧
        (∀ e bad, nextCue s st.toNat c.number c.position = .found (some e) → readCue s e.position = .error bad →
          exec i s = .next (offerFaults u bad)) ∧
        (∀ e d, nextCue s st.toNat c.number c.position = .found (some e) → readCue s e.position = .ok d →
          (d.follow ≠ some 0 → exec i s = .next (afterCue u p e d .cue)) ∧
          (partsDone (playbackAt (afterSetUp u p e d .cue) p) = false → exec i s = .next (afterSetUp u p e d .cue)) ∧
          ∀ v, cueSettles p chainCues (afterSetUp u p e d .cue) v → exec i s = .next v)
    (old.state ≠ .atCue ∨ old.follow = none ∨ (∃ n, old.follow = some n ∧ 1 < n) →
      exec (.followExpiry p o) s = .next s) ∧
    ((∀ k, keyActs s k = false) → (∀ q, q ≠ p → staysAtStep (playbackAt s q) = true) → ∀ c, old.cue = some c →
      (∀ n, old.state = .atCue → old.follow = some n → n ≤ 1 →
        follows (.followExpiry p o) (stepped { old with follow := none }) c) ∧
      (old.state = .fading → partsDone (advanceParts old) = true → c.follow = some 0 →
        ∃ l, (∀ e, e ∈ l ↔ e.fade = none ∧ e.level ≠ 0 ∧
            ∃ f ∈ old.list, f.channel = e.channel ∧ e.level = (match f.fade with | some g => g.target | none => f.level)) ∧
          let u : State := { stepped { advanceParts old with state := .atCue, follow := none, list := l } with
            takeOrder := if l = [] then s.takeOrder.filter (· ≠ p) else s.takeOrder }
          follows (.cueCompletion p o) (if c.report then offerReport u (.cueDone p c.number c.label) else u) c))

/-! ## The stage panel -/

/-- R75: a change of a key's input restarts its stability timer, and a level that already stands is no change; the step expiry
that recognises a key as RELEASED causes no action, and KEY_RELEASED is nothing at any other (log 6). The other keys and the
playbacks (here without a completion, a follow or an action due) go as at any step expiry. -/
def Obligations.KeysAreDebounced : Prop :=
  ∀ (s : State) (k : Key) (o : StepOrder) (pressed : Bool),
    let ks := keyState s.panel k
    (ks.input = pressed → exec (.keyInputChange k pressed) s = .next s) ∧
    (ks.input ≠ pressed → ∃ t, exec (.keyInputChange k pressed) s = .next t ∧
      keyState t.panel k = { ks with input := pressed, stable := 0 } ∧
      (∀ j, j ≠ k → keyState t.panel j = keyState s.panel j) ∧ t = { s with panel := t.panel }) ∧
    (s.phase = .inReset ∨ ks.stable ≠ 1 ∨ ks.pressed = false ∨ ks.input = true → exec (.keyReleased k o) s = .next s) ∧
    (s.phase ≠ .inReset → ks.stable = 1 → ks.pressed = true → ks.input = false → s.followStuck = false →
      (∀ j, keyActs s j = false) → (∀ p, staysAtStep (playbackAt s p) = true) →
      ∃ t, exec (.keyReleased k o) s = .next t ∧ keyState t.panel k = { input := false, pressed := false, stable := 2 } ∧
        t.panel = steppedPanel s.panel ∧ (∀ p, playbackAt t p = steppedPlayback (playbackAt s p)) ∧
        t = { s with playbacks := t.playbacks, panel := t.panel })

/-- R75, R76: the step expiry that recognises a key as PRESSED, with no playback completing or following and no other key acting.
The playbacks advance, whatever they are doing. With panel enable off, or before the end of the power-up check, the key has no
effect. Otherwise it acts as the command it stands for, given to the panel playback (GO and BACK written here as an unanswered
request of the owner): RESUME where the playback is PAUSED, PAUSE elsewhere, which cancels a follow in AT_CUE. At any other
step expiry KEY_PRESSED is nothing (log 6); the order within a step expiry is the operand's (log 15): the key comes after the
panel playback has advanced, or, for PAUSE, before it. -/
def Obligations.PressedKeyCommandsPlayback : Prop :=
  ∀ (s : State) (k : Key) (o : StepOrder),
    let ks := keyState s.panel k
    let u : State := { s with
      panel := steppedPanel s.panel, playbacks := Vector.ofFn fun q => steppedPlayback (playbackAt s q) }
    let p := panelPlayback s
    let r : Req := ⟨s.arb.owner, 0, 0⟩
    let n : Byte := BitVec.ofNat 8 (p.val + 1)
    (s.phase = .inReset ∨ ks.stable ≠ 1 ∨ ks.pressed = true ∨ ks.input = false → exec (.keyPressed k o) s = .next s) ∧
    (s.phase ≠ .inReset → ks.stable = 1 → ks.pressed = false → ks.input = true → s.followStuck = false →
      (∀ j, j ≠ k → keyActs s j = false) → (∀ q, staysAtStep (playbackAt s q) = true) →
      keyState (steppedPanel s.panel) k = { input := true, pressed := true, stable := 2 } ∧
      (s.working.panelEnable = false ∨ s.phase ≠ .running → exec (.keyPressed k o) s = .next u) ∧
      (s.working.panelEnable = true → s.phase = .running →
        (p.val < (keyPlace o k).val →
          (k = .go → exec (.keyPressed k o) s = exec (.go r n) u) ∧
          (k = .back → exec (.keyPressed k o) s = exec (.back r n) u)) ∧
        (k = .pause →
          let pb := if p.val < (keyPlace o k).val then playbackAt u p else playbackAt s p
          (pb.state = .fading → exec (.keyPressed k o) s = .next (setPlayback u p { pb with state := .paused })) ∧
          (pb.state = .atCue → pb.follow ≠ none →
            exec (.keyPressed k o) s = .next (setPlayback u p { pb with follow := none })) ∧
          (pb.state = .paused → p.val < (keyPlace o k).val →
            exec (.keyPressed k o) s = .next (setPlayback u p { pb with state := .fading })) ∧
          (pb.state = .paused → ¬ p.val < (keyPlace o k).val → partsDone (advanceParts pb) = false →
            exec (.keyPressed k o) s = .next (setPlayback u p { advanceParts pb with state := .fading })) ∧
          (pb.state = .unbound ∨ pb.state = .ready ∨ pb.state = .releasing ∨ (pb.state = .atCue ∧ pb.follow = none) →
            exec (.keyPressed k o) s = .next u))))

/-! ## What every step keeps -/

/-- Every step keeps the link and arbiter invariant (R18, R37; what full reset leaves of the arbiter is by log 2). -/
def Obligations.StepKeepsConsole : Prop :=
  ∀ s t : State, ConsoleInv s → step s = .next t → ConsoleInv t

/-- Every step keeps the invariant of the links' indices, of the queues and of the return lines. -/
def Obligations.StepKeepsQueues : Prop :=
  ∀ s t : State, QueueInv s → step s = .next t → QueueInv t

/-- Every step keeps the invariants of table memory and of what acts on it: the store and the shadow in canonical form, the fault
list, the slot, the shadow equal to the live tables while patch hold is off (R149), and the settings with their working
copies and the lines. -/
def Obligations.StepKeepsTableMemory : Prop :=
  ∀ s t : State, StoreInv s → SettingsInv s → step s = .next t → StoreInv t ∧ SettingsInv t

/-- Every step keeps the invariant of the fade engine; that no follow chain is left without an end in a next state is R65 with
the fault of log 5. -/
def Obligations.StepKeepsPlaybacks : Prop :=
  ∀ s t : State, PlaybackInv s → step s = .next t → PlaybackInv t
end

