-- ==== Sys2Proof/Laws/State.lean ====
section
/-! SUPPORT. The small lemmas of the state's updates: for each named update of State, what it leaves in every field. -/

namespace Sys2Proof.Machine

variable (s : State)

/-! ## A link receiver replaced -/

@[simp] theorem setLink_pending (x : Link) (l : LinkRx) : (setLink s x l).pending = s.pending := rfl
@[simp] theorem setLink_phase (x : Link) (l : LinkRx) : (setLink s x l).phase = s.phase := rfl
@[simp] theorem setLink_arb (x : Link) (l : LinkRx) : (setLink s x l).arb = s.arb := rfl
@[simp] theorem setLink_working (x : Link) (l : LinkRx) : (setLink s x l).working = s.working := rfl
@[simp] theorem setLink_tableIndex (x : Link) (l : LinkRx) : (setLink s x l).tableIndex = s.tableIndex := rfl
@[simp] theorem setLink_replies (x : Link) (l : LinkRx) : (setLink s x l).replies = s.replies := rfl
@[simp] theorem setLink_tx (x : Link) (l : LinkRx) : (setLink s x l).tx = s.tx := rfl
@[simp] theorem setLink_reports (x : Link) (l : LinkRx) : (setLink s x l).reports = s.reports := rfl
@[simp] theorem setLink_dropMark (x : Link) (l : LinkRx) : (setLink s x l).dropMark = s.dropMark := rfl
@[simp] theorem setLink_slot (x : Link) (l : LinkRx) : (setLink s x l).slot = s.slot := rfl
@[simp] theorem setLink_lastVerify (x : Link) (l : LinkRx) : (setLink s x l).lastVerify = s.lastVerify := rfl
@[simp] theorem setLink_lastVerifyAddr (x : Link) (l : LinkRx) : (setLink s x l).lastVerifyAddr = s.lastVerifyAddr := rfl
@[simp] theorem setLink_verified (x : Link) (l : LinkRx) : (setLink s x l).verified = s.verified := rfl
@[simp] theorem setLink_store (x : Link) (l : LinkRx) : (setLink s x l).store = s.store := rfl
@[simp] theorem setLink_shadow (x : Link) (l : LinkRx) : (setLink s x l).shadow = s.shadow := rfl
@[simp] theorem setLink_patchHold (x : Link) (l : LinkRx) : (setLink s x l).patchHold = s.patchHold := rfl
@[simp] theorem setLink_safeMode (x : Link) (l : LinkRx) : (setLink s x l).safeMode = s.safeMode := rfl
@[simp] theorem setLink_active (x : Link) (l : LinkRx) : (setLink s x l).active = s.active := rfl
@[simp] theorem setLink_stackIndex (x : Link) (l : LinkRx) : (setLink s x l).stackIndex = s.stackIndex := rfl
@[simp] theorem setLink_faultList (x : Link) (l : LinkRx) : (setLink s x l).faultList = s.faultList := rfl
@[simp] theorem setLink_faultOverflow (x : Link) (l : LinkRx) : (setLink s x l).faultOverflow = s.faultOverflow := rfl
@[simp] theorem setLink_playbacks (x : Link) (l : LinkRx) : (setLink s x l).playbacks = s.playbacks := rfl
@[simp] theorem setLink_takeOrder (x : Link) (l : LinkRx) : (setLink s x l).takeOrder = s.takeOrder := rfl
@[simp] theorem setLink_panel (x : Link) (l : LinkRx) : (setLink s x l).panel = s.panel := rfl
@[simp] theorem setLink_lines (x : Link) (l : LinkRx) : (setLink s x l).lines = s.lines := rfl
@[simp] theorem setLink_prevOut (x : Link) (l : LinkRx) : (setLink s x l).prevOut = s.prevOut := rfl
@[simp] theorem setLink_freeDraws (x : Link) (l : LinkRx) : (setLink s x l).freeDraws = s.freeDraws := rfl
@[simp] theorem setLink_followStuck (x : Link) (l : LinkRx) : (setLink s x l).followStuck = s.followStuck := rfl
@[simp] theorem setLink_links (x : Link) (l : LinkRx) : (setLink s x l).links = s.links.put x l := rfl

/-! ## A playback replaced -/

@[simp] theorem setPlayback_pending (p : PlaybackNo) (pb : Playback) : (setPlayback s p pb).pending = s.pending := rfl
@[simp] theorem setPlayback_phase (p : PlaybackNo) (pb : Playback) : (setPlayback s p pb).phase = s.phase := rfl
@[simp] theorem setPlayback_links (p : PlaybackNo) (pb : Playback) : (setPlayback s p pb).links = s.links := rfl
@[simp] theorem setPlayback_arb (p : PlaybackNo) (pb : Playback) : (setPlayback s p pb).arb = s.arb := rfl
@[simp] theorem setPlayback_working (p : PlaybackNo) (pb : Playback) : (setPlayback s p pb).working = s.working := rfl
@[simp] theorem setPlayback_tableIndex (p : PlaybackNo) (pb : Playback) : (setPlayback s p pb).tableIndex = s.tableIndex := rfl
@[simp] theorem setPlayback_replies (p : PlaybackNo) (pb : Playback) : (setPlayback s p pb).replies = s.replies := rfl
@[simp] theorem setPlayback_tx (p : PlaybackNo) (pb : Playback) : (setPlayback s p pb).tx = s.tx := rfl
@[simp] theorem setPlayback_reports (p : PlaybackNo) (pb : Playback) : (setPlayback s p pb).reports = s.reports := rfl
@[simp] theorem setPlayback_dropMark (p : PlaybackNo) (pb : Playback) : (setPlayback s p pb).dropMark = s.dropMark := rfl
@[simp] theorem setPlayback_slot (p : PlaybackNo) (pb : Playback) : (setPlayback s p pb).slot = s.slot := rfl
@[simp] theorem setPlayback_lastVerify (p : PlaybackNo) (pb : Playback) : (setPlayback s p pb).lastVerify = s.lastVerify := rfl
@[simp] theorem setPlayback_lastVerifyAddr (p : PlaybackNo) (pb : Playback) : (setPlayback s p pb).lastVerifyAddr = s.lastVerifyAddr := rfl
@[simp] theorem setPlayback_verified (p : PlaybackNo) (pb : Playback) : (setPlayback s p pb).verified = s.verified := rfl
@[simp] theorem setPlayback_store (p : PlaybackNo) (pb : Playback) : (setPlayback s p pb).store = s.store := rfl
@[simp] theorem setPlayback_shadow (p : PlaybackNo) (pb : Playback) : (setPlayback s p pb).shadow = s.shadow := rfl
@[simp] theorem setPlayback_patchHold (p : PlaybackNo) (pb : Playback) : (setPlayback s p pb).patchHold = s.patchHold := rfl
@[simp] theorem setPlayback_safeMode (p : PlaybackNo) (pb : Playback) : (setPlayback s p pb).safeMode = s.safeMode := rfl
@[simp] theorem setPlayback_active (p : PlaybackNo) (pb : Playback) : (setPlayback s p pb).active = s.active := rfl
@[simp] theorem setPlayback_stackIndex (p : PlaybackNo) (pb : Playback) : (setPlayback s p pb).stackIndex = s.stackIndex := rfl
@[simp] theorem setPlayback_faultList (p : PlaybackNo) (pb : Playback) : (setPlayback s p pb).faultList = s.faultList := rfl
@[simp] theorem setPlayback_faultOverflow (p : PlaybackNo) (pb : Playback) : (setPlayback s p pb).faultOverflow = s.faultOverflow := rfl
@[simp] theorem setPlayback_takeOrder (p : PlaybackNo) (pb : Playback) : (setPlayback s p pb).takeOrder = s.takeOrder := rfl
@[simp] theorem setPlayback_panel (p : PlaybackNo) (pb : Playback) : (setPlayback s p pb).panel = s.panel := rfl
@[simp] theorem setPlayback_lines (p : PlaybackNo) (pb : Playback) : (setPlayback s p pb).lines = s.lines := rfl
@[simp] theorem setPlayback_prevOut (p : PlaybackNo) (pb : Playback) : (setPlayback s p pb).prevOut = s.prevOut := rfl
@[simp] theorem setPlayback_freeDraws (p : PlaybackNo) (pb : Playback) : (setPlayback s p pb).freeDraws = s.freeDraws := rfl
@[simp] theorem setPlayback_followStuck (p : PlaybackNo) (pb : Playback) : (setPlayback s p pb).followStuck = s.followStuck := rfl
@[simp] theorem setPlayback_playbacks (p : PlaybackNo) (pb : Playback) : (setPlayback s p pb).playbacks = s.playbacks.set p pb := rfl

/-! ## An output line replaced -/

@[simp] theorem setLine_pending (k : LineNo) (l : Line) : (setLine s k l).pending = s.pending := rfl
@[simp] theorem setLine_phase (k : LineNo) (l : Line) : (setLine s k l).phase = s.phase := rfl
@[simp] theorem setLine_links (k : LineNo) (l : Line) : (setLine s k l).links = s.links := rfl
@[simp] theorem setLine_arb (k : LineNo) (l : Line) : (setLine s k l).arb = s.arb := rfl
@[simp] theorem setLine_working (k : LineNo) (l : Line) : (setLine s k l).working = s.working := rfl
@[simp] theorem setLine_tableIndex (k : LineNo) (l : Line) : (setLine s k l).tableIndex = s.tableIndex := rfl
@[simp] theorem setLine_replies (k : LineNo) (l : Line) : (setLine s k l).replies = s.replies := rfl
@[simp] theorem setLine_tx (k : LineNo) (l : Line) : (setLine s k l).tx = s.tx := rfl
@[simp] theorem setLine_reports (k : LineNo) (l : Line) : (setLine s k l).reports = s.reports := rfl
@[simp] theorem setLine_dropMark (k : LineNo) (l : Line) : (setLine s k l).dropMark = s.dropMark := rfl
@[simp] theorem setLine_slot (k : LineNo) (l : Line) : (setLine s k l).slot = s.slot := rfl
@[simp] theorem setLine_lastVerify (k : LineNo) (l : Line) : (setLine s k l).lastVerify = s.lastVerify := rfl
@[simp] theorem setLine_lastVerifyAddr (k : LineNo) (l : Line) : (setLine s k l).lastVerifyAddr = s.lastVerifyAddr := rfl
@[simp] theorem setLine_verified (k : LineNo) (l : Line) : (setLine s k l).verified = s.verified := rfl
@[simp] theorem setLine_store (k : LineNo) (l : Line) : (setLine s k l).store = s.store := rfl
@[simp] theorem setLine_shadow (k : LineNo) (l : Line) : (setLine s k l).shadow = s.shadow := rfl
@[simp] theorem setLine_patchHold (k : LineNo) (l : Line) : (setLine s k l).patchHold = s.patchHold := rfl
@[simp] theorem setLine_safeMode (k : LineNo) (l : Line) : (setLine s k l).safeMode = s.safeMode := rfl
@[simp] theorem setLine_active (k : LineNo) (l : Line) : (setLine s k l).active = s.active := rfl
@[simp] theorem setLine_stackIndex (k : LineNo) (l : Line) : (setLine s k l).stackIndex = s.stackIndex := rfl
@[simp] theorem setLine_faultList (k : LineNo) (l : Line) : (setLine s k l).faultList = s.faultList := rfl
@[simp] theorem setLine_faultOverflow (k : LineNo) (l : Line) : (setLine s k l).faultOverflow = s.faultOverflow := rfl
@[simp] theorem setLine_playbacks (k : LineNo) (l : Line) : (setLine s k l).playbacks = s.playbacks := rfl
@[simp] theorem setLine_takeOrder (k : LineNo) (l : Line) : (setLine s k l).takeOrder = s.takeOrder := rfl
@[simp] theorem setLine_panel (k : LineNo) (l : Line) : (setLine s k l).panel = s.panel := rfl
@[simp] theorem setLine_prevOut (k : LineNo) (l : Line) : (setLine s k l).prevOut = s.prevOut := rfl
@[simp] theorem setLine_freeDraws (k : LineNo) (l : Line) : (setLine s k l).freeDraws = s.freeDraws := rfl
@[simp] theorem setLine_followStuck (k : LineNo) (l : Line) : (setLine s k l).followStuck = s.followStuck := rfl
@[simp] theorem setLine_lines (k : LineNo) (l : Line) : (setLine s k l).lines = s.lines.set k l := rfl

/-! ## A rewrite of a retained word -/

@[simp] theorem rewrite_pending (a : Nat) (v : Word) : (rewrite s a v).pending = s.pending := rfl
@[simp] theorem rewrite_phase (a : Nat) (v : Word) : (rewrite s a v).phase = s.phase := rfl
@[simp] theorem rewrite_links (a : Nat) (v : Word) : (rewrite s a v).links = s.links := rfl
@[simp] theorem rewrite_arb (a : Nat) (v : Word) : (rewrite s a v).arb = s.arb := rfl
@[simp] theorem rewrite_working (a : Nat) (v : Word) : (rewrite s a v).working = s.working := rfl
@[simp] theorem rewrite_tableIndex (a : Nat) (v : Word) : (rewrite s a v).tableIndex = s.tableIndex := rfl
@[simp] theorem rewrite_replies (a : Nat) (v : Word) : (rewrite s a v).replies = s.replies := rfl
@[simp] theorem rewrite_tx (a : Nat) (v : Word) : (rewrite s a v).tx = s.tx := rfl
@[simp] theorem rewrite_reports (a : Nat) (v : Word) : (rewrite s a v).reports = s.reports := rfl
@[simp] theorem rewrite_dropMark (a : Nat) (v : Word) : (rewrite s a v).dropMark = s.dropMark := rfl
@[simp] theorem rewrite_slot (a : Nat) (v : Word) : (rewrite s a v).slot = s.slot := rfl
@[simp] theorem rewrite_lastVerify (a : Nat) (v : Word) : (rewrite s a v).lastVerify = s.lastVerify := rfl
@[simp] theorem rewrite_lastVerifyAddr (a : Nat) (v : Word) : (rewrite s a v).lastVerifyAddr = s.lastVerifyAddr := rfl
@[simp] theorem rewrite_verified (a : Nat) (v : Word) : (rewrite s a v).verified = s.verified := rfl
@[simp] theorem rewrite_shadow (a : Nat) (v : Word) : (rewrite s a v).shadow = s.shadow := rfl
@[simp] theorem rewrite_patchHold (a : Nat) (v : Word) : (rewrite s a v).patchHold = s.patchHold := rfl
@[simp] theorem rewrite_safeMode (a : Nat) (v : Word) : (rewrite s a v).safeMode = s.safeMode := rfl
@[simp] theorem rewrite_active (a : Nat) (v : Word) : (rewrite s a v).active = s.active := rfl
@[simp] theorem rewrite_stackIndex (a : Nat) (v : Word) : (rewrite s a v).stackIndex = s.stackIndex := rfl
@[simp] theorem rewrite_faultOverflow (a : Nat) (v : Word) : (rewrite s a v).faultOverflow = s.faultOverflow := rfl
@[simp] theorem rewrite_playbacks (a : Nat) (v : Word) : (rewrite s a v).playbacks = s.playbacks := rfl
@[simp] theorem rewrite_takeOrder (a : Nat) (v : Word) : (rewrite s a v).takeOrder = s.takeOrder := rfl
@[simp] theorem rewrite_panel (a : Nat) (v : Word) : (rewrite s a v).panel = s.panel := rfl
@[simp] theorem rewrite_lines (a : Nat) (v : Word) : (rewrite s a v).lines = s.lines := rfl
@[simp] theorem rewrite_prevOut (a : Nat) (v : Word) : (rewrite s a v).prevOut = s.prevOut := rfl
@[simp] theorem rewrite_freeDraws (a : Nat) (v : Word) : (rewrite s a v).freeDraws = s.freeDraws := rfl
@[simp] theorem rewrite_followStuck (a : Nat) (v : Word) : (rewrite s a v).followStuck = s.followStuck := rfl
@[simp] theorem rewrite_store (a : Nat) (v : Word) : (rewrite s a v).store = tset defaultStored s.store a ⟨v, false⟩ := rfl
@[simp] theorem rewrite_faultList (a : Nat) (v : Word) : (rewrite s a v).faultList = s.faultList.filter (· ≠ a) := rfl

/-! ## A parity fault that comes about -/

@[simp] theorem breakParity_pending (a : Nat) (v : Word) : (breakParity s a v).pending = s.pending := rfl
@[simp] theorem breakParity_phase (a : Nat) (v : Word) : (breakParity s a v).phase = s.phase := rfl
@[simp] theorem breakParity_links (a : Nat) (v : Word) : (breakParity s a v).links = s.links := rfl
@[simp] theorem breakParity_arb (a : Nat) (v : Word) : (breakParity s a v).arb = s.arb := rfl
@[simp] theorem breakParity_working (a : Nat) (v : Word) : (breakParity s a v).working = s.working := rfl
@[simp] theorem breakParity_tableIndex (a : Nat) (v : Word) : (breakParity s a v).tableIndex = s.tableIndex := rfl
@[simp] theorem breakParity_replies (a : Nat) (v : Word) : (breakParity s a v).replies = s.replies := rfl
@[simp] theorem breakParity_tx (a : Nat) (v : Word) : (breakParity s a v).tx = s.tx := rfl
@[simp] theorem breakParity_reports (a : Nat) (v : Word) : (breakParity s a v).reports = s.reports := rfl
@[simp] theorem breakParity_dropMark (a : Nat) (v : Word) : (breakParity s a v).dropMark = s.dropMark := rfl
@[simp] theorem breakParity_slot (a : Nat) (v : Word) : (breakParity s a v).slot = s.slot := rfl
@[simp] theorem breakParity_lastVerify (a : Nat) (v : Word) : (breakParity s a v).lastVerify = s.lastVerify := rfl
@[simp] theorem breakParity_lastVerifyAddr (a : Nat) (v : Word) : (breakParity s a v).lastVerifyAddr = s.lastVerifyAddr := rfl
@[simp] theorem breakParity_verified (a : Nat) (v : Word) : (breakParity s a v).verified = s.verified := rfl
@[simp] theorem breakParity_shadow (a : Nat) (v : Word) : (breakParity s a v).shadow = s.shadow := rfl
@[simp] theorem breakParity_patchHold (a : Nat) (v : Word) : (breakParity s a v).patchHold = s.patchHold := rfl
@[simp] theorem breakParity_safeMode (a : Nat) (v : Word) : (breakParity s a v).safeMode = s.safeMode := rfl
@[simp] theorem breakParity_active (a : Nat) (v : Word) : (breakParity s a v).active = s.active := rfl
@[simp] theorem breakParity_stackIndex (a : Nat) (v : Word) : (breakParity s a v).stackIndex = s.stackIndex := rfl
@[simp] theorem breakParity_faultList (a : Nat) (v : Word) : (breakParity s a v).faultList = s.faultList := rfl
@[simp] theorem breakParity_faultOverflow (a : Nat) (v : Word) : (breakParity s a v).faultOverflow = s.faultOverflow := rfl
@[simp] theorem breakParity_playbacks (a : Nat) (v : Word) : (breakParity s a v).playbacks = s.playbacks := rfl
@[simp] theorem breakParity_takeOrder (a : Nat) (v : Word) : (breakParity s a v).takeOrder = s.takeOrder := rfl
@[simp] theorem breakParity_panel (a : Nat) (v : Word) : (breakParity s a v).panel = s.panel := rfl
@[simp] theorem breakParity_lines (a : Nat) (v : Word) : (breakParity s a v).lines = s.lines := rfl
@[simp] theorem breakParity_prevOut (a : Nat) (v : Word) : (breakParity s a v).prevOut = s.prevOut := rfl
@[simp] theorem breakParity_freeDraws (a : Nat) (v : Word) : (breakParity s a v).freeDraws = s.freeDraws := rfl
@[simp] theorem breakParity_followStuck (a : Nat) (v : Word) : (breakParity s a v).followStuck = s.followStuck := rfl
@[simp] theorem breakParity_store (a : Nat) (v : Word) : (breakParity s a v).store = tset defaultStored s.store a ⟨v, true⟩ := rfl

/-! ## A frame start on a return line (R145): only the queues and the transmitters can change -/

@[simp] theorem startFrame_pending (x : Link) : (startFrame s x).pending = s.pending := by
 unfold startFrame; split <;> [rfl; (split <;> [(split <;> rfl); rfl])]
@[simp] theorem startFrame_phase (x : Link) : (startFrame s x).phase = s.phase := by
 unfold startFrame; split <;> [rfl; (split <;> [(split <;> rfl); rfl])]
@[simp] theorem startFrame_links (x : Link) : (startFrame s x).links = s.links := by
 unfold startFrame; split <;> [rfl; (split <;> [(split <;> rfl); rfl])]
@[simp] theorem startFrame_arb (x : Link) : (startFrame s x).arb = s.arb := by
 unfold startFrame; split <;> [rfl; (split <;> [(split <;> rfl); rfl])]
@[simp] theorem startFrame_working (x : Link) : (startFrame s x).working = s.working := by
 unfold startFrame; split <;> [rfl; (split <;> [(split <;> rfl); rfl])]
@[simp] theorem startFrame_tableIndex (x : Link) : (startFrame s x).tableIndex = s.tableIndex := by
 unfold startFrame; split <;> [rfl; (split <;> [(split <;> rfl); rfl])]
@[simp] theorem startFrame_dropMark (x : Link) : (startFrame s x).dropMark = s.dropMark := by
 unfold startFrame; split <;> [rfl; (split <;> [(split <;> rfl); rfl])]
@[simp] theorem startFrame_slot (x : Link) : (startFrame s x).slot = s.slot := by
 unfold startFrame; split <;> [rfl; (split <;> [(split <;> rfl); rfl])]
@[simp] theorem startFrame_lastVerify (x : Link) : (startFrame s x).lastVerify = s.lastVerify := by
 unfold startFrame; split <;> [rfl; (split <;> [(split <;> rfl); rfl])]
@[simp] theorem startFrame_lastVerifyAddr (x : Link) : (startFrame s x).lastVerifyAddr = s.lastVerifyAddr := by
 unfold startFrame; split <;> [rfl; (split <;> [(split <;> rfl); rfl])]
@[simp] theorem startFrame_verified (x : Link) : (startFrame s x).verified = s.verified := by
 unfold startFrame; split <;> [rfl; (split <;> [(split <;> rfl); rfl])]
@[simp] theorem startFrame_store (x : Link) : (startFrame s x).store = s.store := by
 unfold startFrame; split <;> [rfl; (split <;> [(split <;> rfl); rfl])]
@[simp] theorem startFrame_shadow (x : Link) : (startFrame s x).shadow = s.shadow := by
 unfold startFrame; split <;> [rfl; (split <;> [(split <;> rfl); rfl])]
@[simp] theorem startFrame_patchHold (x : Link) : (startFrame s x).patchHold = s.patchHold := by
 unfold startFrame; split <;> [rfl; (split <;> [(split <;> rfl); rfl])]
@[simp] theorem startFrame_safeMode (x : Link) : (startFrame s x).safeMode = s.safeMode := by
 unfold startFrame; split <;> [rfl; (split <;> [(split <;> rfl); rfl])]
@[simp] theorem startFrame_active (x : Link) : (startFrame s x).active = s.active := by
 unfold startFrame; split <;> [rfl; (split <;> [(split <;> rfl); rfl])]
@[simp] theorem startFrame_stackIndex (x : Link) : (startFrame s x).stackIndex = s.stackIndex := by
 unfold startFrame; split <;> [rfl; (split <;> [(split <;> rfl); rfl])]
@[simp] theorem startFrame_faultList (x : Link) : (startFrame s x).faultList = s.faultList := by
 unfold startFrame; split <;> [rfl; (split <;> [(split <;> rfl); rfl])]
@[simp] theorem startFrame_faultOverflow (x : Link) : (startFrame s x).faultOverflow = s.faultOverflow := by
 unfold startFrame; split <;> [rfl; (split <;> [(split <;> rfl); rfl])]
@[simp] theorem startFrame_playbacks (x : Link) : (startFrame s x).playbacks = s.playbacks := by
 unfold startFrame; split <;> [rfl; (split <;> [(split <;> rfl); rfl])]
@[simp] theorem startFrame_takeOrder (x : Link) : (startFrame s x).takeOrder = s.takeOrder := by
 unfold startFrame; split <;> [rfl; (split <;> [(split <;> rfl); rfl])]
@[simp] theorem startFrame_panel (x : Link) : (startFrame s x).panel = s.panel := by
 unfold startFrame; split <;> [rfl; (split <;> [(split <;> rfl); rfl])]
@[simp] theorem startFrame_lines (x : Link) : (startFrame s x).lines = s.lines := by
 unfold startFrame; split <;> [rfl; (split <;> [(split <;> rfl); rfl])]
@[simp] theorem startFrame_prevOut (x : Link) : (startFrame s x).prevOut = s.prevOut := by
 unfold startFrame; split <;> [rfl; (split <;> [(split <;> rfl); rfl])]
@[simp] theorem startFrame_freeDraws (x : Link) : (startFrame s x).freeDraws = s.freeDraws := by
 unfold startFrame; split <;> [rfl; (split <;> [(split <;> rfl); rfl])]
@[simp] theorem startFrame_followStuck (x : Link) : (startFrame s x).followStuck = s.followStuck := by
 unfold startFrame; split <;> [rfl; (split <;> [(split <;> rfl); rfl])]

/-! ## A frame start where the transmitter is idle -/

@[simp] theorem startIfIdle_pending (x : Link) : (startIfIdle s x).pending = s.pending := by
 unfold startIfIdle; split <;> simp
@[simp] theorem startIfIdle_phase (x : Link) : (startIfIdle s x).phase = s.phase := by
 unfold startIfIdle; split <;> simp
@[simp] theorem startIfIdle_links (x : Link) : (startIfIdle s x).links = s.links := by
 unfold startIfIdle; split <;> simp
@[simp] theorem startIfIdle_arb (x : Link) : (startIfIdle s x).arb = s.arb := by
 unfold startIfIdle; split <;> simp
@[simp] theorem startIfIdle_working (x : Link) : (startIfIdle s x).working = s.working := by
 unfold startIfIdle; split <;> simp
@[simp] theorem startIfIdle_tableIndex (x : Link) : (startIfIdle s x).tableIndex = s.tableIndex := by
 unfold startIfIdle; split <;> simp
@[simp] theorem startIfIdle_dropMark (x : Link) : (startIfIdle s x).dropMark = s.dropMark := by
 unfold startIfIdle; split <;> simp
@[simp] theorem startIfIdle_slot (x : Link) : (startIfIdle s x).slot = s.slot := by
 unfold startIfIdle; split <;> simp
@[simp] theorem startIfIdle_lastVerify (x : Link) : (startIfIdle s x).lastVerify = s.lastVerify := by
 unfold startIfIdle; split <;> simp
@[simp] theorem startIfIdle_lastVerifyAddr (x : Link) : (startIfIdle s x).lastVerifyAddr = s.lastVerifyAddr := by
 unfold startIfIdle; split <;> simp
@[simp] theorem startIfIdle_verified (x : Link) : (startIfIdle s x).verified = s.verified := by
 unfold startIfIdle; split <;> simp
@[simp] theorem startIfIdle_store (x : Link) : (startIfIdle s x).store = s.store := by
 unfold startIfIdle; split <;> simp
@[simp] theorem startIfIdle_shadow (x : Link) : (startIfIdle s x).shadow = s.shadow := by
 unfold startIfIdle; split <;> simp
@[simp] theorem startIfIdle_patchHold (x : Link) : (startIfIdle s x).patchHold = s.patchHold := by
 unfold startIfIdle; split <;> simp
@[simp] theorem startIfIdle_safeMode (x : Link) : (startIfIdle s x).safeMode = s.safeMode := by
 unfold startIfIdle; split <;> simp
@[simp] theorem startIfIdle_active (x : Link) : (startIfIdle s x).active = s.active := by
 unfold startIfIdle; split <;> simp
@[simp] theorem startIfIdle_stackIndex (x : Link) : (startIfIdle s x).stackIndex = s.stackIndex := by
 unfold startIfIdle; split <;> simp
@[simp] theorem startIfIdle_faultList (x : Link) : (startIfIdle s x).faultList = s.faultList := by
 unfold startIfIdle; split <;> simp
@[simp] theorem startIfIdle_faultOverflow (x : Link) : (startIfIdle s x).faultOverflow = s.faultOverflow := by
 unfold startIfIdle; split <;> simp
@[simp] theorem startIfIdle_playbacks (x : Link) : (startIfIdle s x).playbacks = s.playbacks := by
 unfold startIfIdle; split <;> simp
@[simp] theorem startIfIdle_takeOrder (x : Link) : (startIfIdle s x).takeOrder = s.takeOrder := by
 unfold startIfIdle; split <;> simp
@[simp] theorem startIfIdle_panel (x : Link) : (startIfIdle s x).panel = s.panel := by
 unfold startIfIdle; split <;> simp
@[simp] theorem startIfIdle_lines (x : Link) : (startIfIdle s x).lines = s.lines := by
 unfold startIfIdle; split <;> simp
@[simp] theorem startIfIdle_prevOut (x : Link) : (startIfIdle s x).prevOut = s.prevOut := by
 unfold startIfIdle; split <;> simp
@[simp] theorem startIfIdle_freeDraws (x : Link) : (startIfIdle s x).freeDraws = s.freeDraws := by
 unfold startIfIdle; split <;> simp
@[simp] theorem startIfIdle_followStuck (x : Link) : (startIfIdle s x).followStuck = s.followStuck := by
 unfold startIfIdle; split <;> simp

/-! ## A report appended or dropped (R143) -/

@[simp] theorem enqueueReport_pending (k : ReportKind) : (enqueueReport s k).pending = s.pending := by
 unfold enqueueReport; split <;> rfl
@[simp] theorem enqueueReport_phase (k : ReportKind) : (enqueueReport s k).phase = s.phase := by
 unfold enqueueReport; split <;> rfl
@[simp] theorem enqueueReport_links (k : ReportKind) : (enqueueReport s k).links = s.links := by
 unfold enqueueReport; split <;> rfl
@[simp] theorem enqueueReport_arb (k : ReportKind) : (enqueueReport s k).arb = s.arb := by
 unfold enqueueReport; split <;> rfl
@[simp] theorem enqueueReport_working (k : ReportKind) : (enqueueReport s k).working = s.working := by
 unfold enqueueReport; split <;> rfl
@[simp] theorem enqueueReport_tableIndex (k : ReportKind) : (enqueueReport s k).tableIndex = s.tableIndex := by
 unfold enqueueReport; split <;> rfl
@[simp] theorem enqueueReport_replies (k : ReportKind) : (enqueueReport s k).replies = s.replies := by
 unfold enqueueReport; split <;> rfl
@[simp] theorem enqueueReport_tx (k : ReportKind) : (enqueueReport s k).tx = s.tx := by
 unfold enqueueReport; split <;> rfl
@[simp] theorem enqueueReport_slot (k : ReportKind) : (enqueueReport s k).slot = s.slot := by
 unfold enqueueReport; split <;> rfl
@[simp] theorem enqueueReport_lastVerify (k : ReportKind) : (enqueueReport s k).lastVerify = s.lastVerify := by
 unfold enqueueReport; split <;> rfl
@[simp] theorem enqueueReport_lastVerifyAddr (k : ReportKind) : (enqueueReport s k).lastVerifyAddr = s.lastVerifyAddr := by
 unfold enqueueReport; split <;> rfl
@[simp] theorem enqueueReport_verified (k : ReportKind) : (enqueueReport s k).verified = s.verified := by
 unfold enqueueReport; split <;> rfl
@[simp] theorem enqueueReport_store (k : ReportKind) : (enqueueReport s k).store = s.store := by
 unfold enqueueReport; split <;> rfl
@[simp] theorem enqueueReport_shadow (k : ReportKind) : (enqueueReport s k).shadow = s.shadow := by
 unfold enqueueReport; split <;> rfl
@[simp] theorem enqueueReport_patchHold (k : ReportKind) : (enqueueReport s k).patchHold = s.patchHold := by
 unfold enqueueReport; split <;> rfl
@[simp] theorem enqueueReport_safeMode (k : ReportKind) : (enqueueReport s k).safeMode = s.safeMode := by
 unfold enqueueReport; split <;> rfl
@[simp] theorem enqueueReport_active (k : ReportKind) : (enqueueReport s k).active = s.active := by
 unfold enqueueReport; split <;> rfl
@[simp] theorem enqueueReport_stackIndex (k : ReportKind) : (enqueueReport s k).stackIndex = s.stackIndex := by
 unfold enqueueReport; split <;> rfl
@[simp] theorem enqueueReport_faultList (k : ReportKind) : (enqueueReport s k).faultList = s.faultList := by
 unfold enqueueReport; split <;> rfl
@[simp] theorem enqueueReport_faultOverflow (k : ReportKind) : (enqueueReport s k).faultOverflow = s.faultOverflow := by
 unfold enqueueReport; split <;> rfl
@[simp] theorem enqueueReport_playbacks (k : ReportKind) : (enqueueReport s k).playbacks = s.playbacks := by
 unfold enqueueReport; split <;> rfl
@[simp] theorem enqueueReport_takeOrder (k : ReportKind) : (enqueueReport s k).takeOrder = s.takeOrder := by
 unfold enqueueReport; split <;> rfl
@[simp] theorem enqueueReport_panel (k : ReportKind) : (enqueueReport s k).panel = s.panel := by
 unfold enqueueReport; split <;> rfl
@[simp] theorem enqueueReport_lines (k : ReportKind) : (enqueueReport s k).lines = s.lines := by
 unfold enqueueReport; split <;> rfl
@[simp] theorem enqueueReport_prevOut (k : ReportKind) : (enqueueReport s k).prevOut = s.prevOut := by
 unfold enqueueReport; split <;> rfl
@[simp] theorem enqueueReport_freeDraws (k : ReportKind) : (enqueueReport s k).freeDraws = s.freeDraws := by
 unfold enqueueReport; split <;> rfl
@[simp] theorem enqueueReport_followStuck (k : ReportKind) : (enqueueReport s k).followStuck = s.followStuck := by
 unfold enqueueReport; split <;> rfl

/-! ## A report offered -/

@[simp] theorem offerReport_pending (k : ReportKind) : (offerReport s k).pending = s.pending := by
 simp [offerReport]
@[simp] theorem offerReport_phase (k : ReportKind) : (offerReport s k).phase = s.phase := by
 simp [offerReport]
@[simp] theorem offerReport_links (k : ReportKind) : (offerReport s k).links = s.links := by
 simp [offerReport]
@[simp] theorem offerReport_arb (k : ReportKind) : (offerReport s k).arb = s.arb := by
 simp [offerReport]
@[simp] theorem offerReport_working (k : ReportKind) : (offerReport s k).working = s.working := by
 simp [offerReport]
@[simp] theorem offerReport_tableIndex (k : ReportKind) : (offerReport s k).tableIndex = s.tableIndex := by
 simp [offerReport]
@[simp] theorem offerReport_slot (k : ReportKind) : (offerReport s k).slot = s.slot := by
 simp [offerReport]
@[simp] theorem offerReport_lastVerify (k : ReportKind) : (offerReport s k).lastVerify = s.lastVerify := by
 simp [offerReport]
@[simp] theorem offerReport_lastVerifyAddr (k : ReportKind) : (offerReport s k).lastVerifyAddr = s.lastVerifyAddr := by
 simp [offerReport]
@[simp] theorem offerReport_verified (k : ReportKind) : (offerReport s k).verified = s.verified := by
 simp [offerReport]
@[simp] theorem offerReport_store (k : ReportKind) : (offerReport s k).store = s.store := by
 simp [offerReport]
@[simp] theorem offerReport_shadow (k : ReportKind) : (offerReport s k).shadow = s.shadow := by
 simp [offerReport]
@[simp] theorem offerReport_patchHold (k : ReportKind) : (offerReport s k).patchHold = s.patchHold := by
 simp [offerReport]
@[simp] theorem offerReport_safeMode (k : ReportKind) : (offerReport s k).safeMode = s.safeMode := by
 simp [offerReport]
@[simp] theorem offerReport_active (k : ReportKind) : (offerReport s k).active = s.active := by
 simp [offerReport]
@[simp] theorem offerReport_stackIndex (k : ReportKind) : (offerReport s k).stackIndex = s.stackIndex := by
 simp [offerReport]
@[simp] theorem offerReport_faultList (k : ReportKind) : (offerReport s k).faultList = s.faultList := by
 simp [offerReport]
@[simp] theorem offerReport_faultOverflow (k : ReportKind) : (offerReport s k).faultOverflow = s.faultOverflow := by
 simp [offerReport]
@[simp] theorem offerReport_playbacks (k : ReportKind) : (offerReport s k).playbacks = s.playbacks := by
 simp [offerReport]
@[simp] theorem offerReport_takeOrder (k : ReportKind) : (offerReport s k).takeOrder = s.takeOrder := by
 simp [offerReport]
@[simp] theorem offerReport_panel (k : ReportKind) : (offerReport s k).panel = s.panel := by
 simp [offerReport]
@[simp] theorem offerReport_lines (k : ReportKind) : (offerReport s k).lines = s.lines := by
 simp [offerReport]
@[simp] theorem offerReport_prevOut (k : ReportKind) : (offerReport s k).prevOut = s.prevOut := by
 simp [offerReport]
@[simp] theorem offerReport_freeDraws (k : ReportKind) : (offerReport s k).freeDraws = s.freeDraws := by
 simp [offerReport]
@[simp] theorem offerReport_followStuck (k : ReportKind) : (offerReport s k).followStuck = s.followStuck := by
 simp [offerReport]

/-! ## A reply queued -/

@[simp] theorem queueReply_pending (x : Link) (r : Reply) : (queueReply s x r).pending = s.pending := by
 simp [queueReply]
@[simp] theorem queueReply_phase (x : Link) (r : Reply) : (queueReply s x r).phase = s.phase := by
 simp [queueReply]
@[simp] theorem queueReply_links (x : Link) (r : Reply) : (queueReply s x r).links = s.links := by
 simp [queueReply]
@[simp] theorem queueReply_arb (x : Link) (r : Reply) : (queueReply s x r).arb = s.arb := by
 simp [queueReply]
@[simp] theorem queueReply_working (x : Link) (r : Reply) : (queueReply s x r).working = s.working := by
 simp [queueReply]
@[simp] theorem queueReply_tableIndex (x : Link) (r : Reply) : (queueReply s x r).tableIndex = s.tableIndex := by
 simp [queueReply]
@[simp] theorem queueReply_dropMark (x : Link) (r : Reply) : (queueReply s x r).dropMark = s.dropMark := by
 simp [queueReply]
@[simp] theorem queueReply_slot (x : Link) (r : Reply) : (queueReply s x r).slot = s.slot := by
 simp [queueReply]
@[simp] theorem queueReply_lastVerify (x : Link) (r : Reply) : (queueReply s x r).lastVerify = s.lastVerify := by
 simp [queueReply]
@[simp] theorem queueReply_lastVerifyAddr (x : Link) (r : Reply) : (queueReply s x r).lastVerifyAddr = s.lastVerifyAddr := by
 simp [queueReply]
@[simp] theorem queueReply_verified (x : Link) (r : Reply) : (queueReply s x r).verified = s.verified := by
 simp [queueReply]
@[simp] theorem queueReply_store (x : Link) (r : Reply) : (queueReply s x r).store = s.store := by
 simp [queueReply]
@[simp] theorem queueReply_shadow (x : Link) (r : Reply) : (queueReply s x r).shadow = s.shadow := by
 simp [queueReply]
@[simp] theorem queueReply_patchHold (x : Link) (r : Reply) : (queueReply s x r).patchHold = s.patchHold := by
 simp [queueReply]
@[simp] theorem queueReply_safeMode (x : Link) (r : Reply) : (queueReply s x r).safeMode = s.safeMode := by
 simp [queueReply]
@[simp] theorem queueReply_active (x : Link) (r : Reply) : (queueReply s x r).active = s.active := by
 simp [queueReply]
@[simp] theorem queueReply_stackIndex (x : Link) (r : Reply) : (queueReply s x r).stackIndex = s.stackIndex := by
 simp [queueReply]
@[simp] theorem queueReply_faultList (x : Link) (r : Reply) : (queueReply s x r).faultList = s.faultList := by
 simp [queueReply]
@[simp] theorem queueReply_faultOverflow (x : Link) (r : Reply) : (queueReply s x r).faultOverflow = s.faultOverflow := by
 simp [queueReply]
@[simp] theorem queueReply_playbacks (x : Link) (r : Reply) : (queueReply s x r).playbacks = s.playbacks := by
 simp [queueReply]
@[simp] theorem queueReply_takeOrder (x : Link) (r : Reply) : (queueReply s x r).takeOrder = s.takeOrder := by
 simp [queueReply]
@[simp] theorem queueReply_panel (x : Link) (r : Reply) : (queueReply s x r).panel = s.panel := by
 simp [queueReply]
@[simp] theorem queueReply_lines (x : Link) (r : Reply) : (queueReply s x r).lines = s.lines := by
 simp [queueReply]
@[simp] theorem queueReply_prevOut (x : Link) (r : Reply) : (queueReply s x r).prevOut = s.prevOut := by
 simp [queueReply]
@[simp] theorem queueReply_freeDraws (x : Link) (r : Reply) : (queueReply s x r).freeDraws = s.freeDraws := by
 simp [queueReply]
@[simp] theorem queueReply_followStuck (x : Link) (r : Reply) : (queueReply s x r).followStuck = s.followStuck := by
 simp [queueReply]

/-! ## An address offered to the fault list (R165) -/

@[simp] theorem offerFault_pending (a : Nat) : (offerFault s a).pending = s.pending := by
 unfold offerFault; split <;> [rfl; (split <;> simp)]
@[simp] theorem offerFault_phase (a : Nat) : (offerFault s a).phase = s.phase := by
 unfold offerFault; split <;> [rfl; (split <;> simp)]
@[simp] theorem offerFault_links (a : Nat) : (offerFault s a).links = s.links := by
 unfold offerFault; split <;> [rfl; (split <;> simp)]
@[simp] theorem offerFault_arb (a : Nat) : (offerFault s a).arb = s.arb := by
 unfold offerFault; split <;> [rfl; (split <;> simp)]
@[simp] theorem offerFault_working (a : Nat) : (offerFault s a).working = s.working := by
 unfold offerFault; split <;> [rfl; (split <;> simp)]
@[simp] theorem offerFault_tableIndex (a : Nat) : (offerFault s a).tableIndex = s.tableIndex := by
 unfold offerFault; split <;> [rfl; (split <;> simp)]
@[simp] theorem offerFault_slot (a : Nat) : (offerFault s a).slot = s.slot := by
 unfold offerFault; split <;> [rfl; (split <;> simp)]
@[simp] theorem offerFault_lastVerify (a : Nat) : (offerFault s a).lastVerify = s.lastVerify := by
 unfold offerFault; split <;> [rfl; (split <;> simp)]
@[simp] theorem offerFault_lastVerifyAddr (a : Nat) : (offerFault s a).lastVerifyAddr = s.lastVerifyAddr := by
 unfold offerFault; split <;> [rfl; (split <;> simp)]
@[simp] theorem offerFault_verified (a : Nat) : (offerFault s a).verified = s.verified := by
 unfold offerFault; split <;> [rfl; (split <;> simp)]
@[simp] theorem offerFault_store (a : Nat) : (offerFault s a).store = s.store := by
 unfold offerFault; split <;> [rfl; (split <;> simp)]
@[simp] theorem offerFault_shadow (a : Nat) : (offerFault s a).shadow = s.shadow := by
 unfold offerFault; split <;> [rfl; (split <;> simp)]
@[simp] theorem offerFault_patchHold (a : Nat) : (offerFault s a).patchHold = s.patchHold := by
 unfold offerFault; split <;> [rfl; (split <;> simp)]
@[simp] theorem offerFault_safeMode (a : Nat) : (offerFault s a).safeMode = s.safeMode := by
 unfold offerFault; split <;> [rfl; (split <;> simp)]
@[simp] theorem offerFault_active (a : Nat) : (offerFault s a).active = s.active := by
 unfold offerFault; split <;> [rfl; (split <;> simp)]
@[simp] theorem offerFault_stackIndex (a : Nat) : (offerFault s a).stackIndex = s.stackIndex := by
 unfold offerFault; split <;> [rfl; (split <;> simp)]
@[simp] theorem offerFault_playbacks (a : Nat) : (offerFault s a).playbacks = s.playbacks := by
 unfold offerFault; split <;> [rfl; (split <;> simp)]
@[simp] theorem offerFault_takeOrder (a : Nat) : (offerFault s a).takeOrder = s.takeOrder := by
 unfold offerFault; split <;> [rfl; (split <;> simp)]
@[simp] theorem offerFault_panel (a : Nat) : (offerFault s a).panel = s.panel := by
 unfold offerFault; split <;> [rfl; (split <;> simp)]
@[simp] theorem offerFault_lines (a : Nat) : (offerFault s a).lines = s.lines := by
 unfold offerFault; split <;> [rfl; (split <;> simp)]
@[simp] theorem offerFault_prevOut (a : Nat) : (offerFault s a).prevOut = s.prevOut := by
 unfold offerFault; split <;> [rfl; (split <;> simp)]
@[simp] theorem offerFault_freeDraws (a : Nat) : (offerFault s a).freeDraws = s.freeDraws := by
 unfold offerFault; split <;> [rfl; (split <;> simp)]
@[simp] theorem offerFault_followStuck (a : Nat) : (offerFault s a).followStuck = s.followStuck := by
 unfold offerFault; split <;> [rfl; (split <;> simp)]

end Sys2Proof.Machine
end

