-- ==== Sys2Proof/Laws/Tables.lean ====
section
/-! SUPPORT. The laws of tables and of the pairs and vectors the state is made of: a read after a write, and the
canonical form that every write keeps. -/

namespace Sys2Proof.Machine

/-! ## One item for each link and for each bank -/

@[simp] theorem PerLink.get_put_self {α : Type} (v : PerLink α) (x : Link) (n : α) : (v.put x n).get x = n := by
  cases x <;> rfl

theorem PerLink.get_put_of_ne {α : Type} (v : PerLink α) {x y : Link} (n : α) (h : y ≠ x) :
    (v.put x n).get y = v.get y := by
  cases x <;> cases y <;> first | rfl | exact absurd rfl h

@[simp] theorem PerBank.get_put_self {α : Type} (v : PerBank α) (b : Bank) (n : α) : (v.put b n).get b = n := by
  cases b <;> rfl

theorem PerBank.get_put_of_ne {α : Type} (v : PerBank α) {b c : Bank} (n : α) (h : c ≠ b) :
    (v.put b n).get c = v.get c := by
  cases b <;> cases c <;> first | rfl | exact absurd rfl h

@[simp] theorem linkOf_setLink_self (s : State) (x : Link) (l : LinkRx) : linkOf (setLink s x l) x = l := by
  simp [linkOf]

theorem linkOf_setLink_of_ne (s : State) {x y : Link} (l : LinkRx) (h : y ≠ x) :
    linkOf (setLink s x l) y = linkOf s y := by
  simp [linkOf, PerLink.get_put_of_ne _ _ h]

@[simp] theorem playbackAt_setPlayback_self (s : State) (p : PlaybackNo) (pb : Playback) :
    playbackAt (setPlayback s p pb) p = pb := by
  simp [playbackAt]

theorem playbackAt_setPlayback_of_ne (s : State) {p q : PlaybackNo} (pb : Playback) (h : q ≠ p) :
    playbackAt (setPlayback s p pb) q = playbackAt s q := by
  have : p.val ≠ q.val := fun e => h (Fin.ext e.symm)
  simp [playbackAt, this]

@[simp] theorem lineAt_setLine_self (s : State) (k : LineNo) (l : Line) : lineAt (setLine s k l) k = l := by
  simp [lineAt]

theorem lineAt_setLine_of_ne (s : State) {k j : LineNo} (l : Line) (h : j ≠ k) :
    lineAt (setLine s k l) j = lineAt s j := by
  have : k.val ≠ j.val := fun e => h (Fin.ext e.symm)
  simp [lineAt, this]

/-! ## Tables -/

section Tables

variable {α : Type} (d : Nat → α)

theorem tget_filter_of_ne (t : Table α) {a b : Nat} (h : b ≠ a) :
    tget d (t.filter fun e => e.1 ≠ a) b = tget d t b := by
  induction t with
  | nil => rfl
  | cons e t ih =>
    rcases Decidable.em (e.1 = a) with he | he
    · have hb : e.1 ≠ b := fun h' => h (h' ▸ he)
      simp only [List.filter_cons, he, ne_eq, not_true_eq_false, decide_false, Bool.false_eq_true, ↓reduceIte, tget]
      rw [ih, if_neg (he ▸ hb)]
    · simp only [List.filter_cons, ne_eq, he, not_false_eq_true, decide_true, ↓reduceIte, tget]
      rw [ih]

theorem tget_filter_self (t : Table α) (a : Nat) : tget d (t.filter fun e => e.1 ≠ a) a = d a := by
  induction t with
  | nil => rfl
  | cons e t ih =>
    rcases Decidable.em (e.1 = a) with he | he
    · simp only [List.filter_cons, he, ne_eq, not_true_eq_false, decide_false, Bool.false_eq_true, ↓reduceIte]
      exact ih
    · simp only [List.filter_cons, ne_eq, he, not_false_eq_true, decide_true, ↓reduceIte, tget]
      exact ih

theorem tget_tins_self (a : Nat) (v : α) (t : Table α) (h : ∀ e ∈ t, e.1 ≠ a) : tget d (tins a v t) a = v := by
  induction t with
  | nil => simp [tins, tget]
  | cons e t ih =>
    simp only [tins]
    split
    · simp [tget]
    · simp only [tget, if_neg (h e (by simp))]
      exact ih fun e he => h e (by simp [he])

theorem tget_tins_of_ne (t : Table α) {a b : Nat} (v : α) (h : b ≠ a) : tget d (tins a v t) b = tget d t b := by
  induction t with
  | nil => simp [tins, tget, h.symm]
  | cons e t ih =>
    simp only [tins]
    split
    · simp [tget, h.symm]
    · simp only [tget, ih]

theorem tget_of_not_mem (t : Table α) {a : Nat} (h : ∀ e ∈ t, e.1 ≠ a) : tget d t a = d a := by
  induction t with
  | nil => rfl
  | cons e t ih =>
    simp only [tget, if_neg (h e (by simp))]
    exact ih fun e he => h e (by simp [he])

variable [DecidableEq α]

/-- A read of the number just written gives the value written, whatever the table. -/
@[simp] theorem tget_tset_self (t : Table α) (a : Nat) (v : α) : tget d (tset d t a v) a = v := by
  unfold tset
  split
  · rename_i h; rw [h]; exact tget_filter_self d t a
  · exact tget_tins_self d a v _ fun e he => by simpa using (List.mem_filter.mp he).2

/-- A write leaves every other number as it was. -/
theorem tget_tset_of_ne (t : Table α) {a b : Nat} (v : α) (h : b ≠ a) : tget d (tset d t a v) b = tget d t b := by
  unfold tset
  split
  · exact tget_filter_of_ne d t h
  · rw [tget_tins_of_ne d _ v h, tget_filter_of_ne d t h]

theorem mem_tins {t : Table α} {a : Nat} {v : α} {e : Nat × α} : e ∈ tins a v t ↔ e = (a, v) ∨ e ∈ t := by
  induction t with
  | nil => simp [tins]
  | cons f t ih =>
    simp only [tins]
    split
    · simp
    · simp only [List.mem_cons, ih]; tauto

theorem tins_pairwise {t : Table α} (a : Nat) (v : α) (h : t.Pairwise fun x y => x.1 < y.1) (hn : ∀ e ∈ t, e.1 ≠ a) :
    (tins a v t).Pairwise fun x y => x.1 < y.1 := by
  induction t with
  | nil => simp [tins]
  | cons f t ih =>
    rw [List.pairwise_cons] at h
    simp only [tins]
    split
    · rename_i hlt
      refine List.Pairwise.cons (fun e he => ?_) (List.Pairwise.cons h.1 h.2)
      rcases List.mem_cons.mp he with rfl | he
      · exact hlt
      · exact lt_trans hlt (h.1 e he)
    · rename_i hlt
      refine List.Pairwise.cons (fun e he => ?_) (ih h.2 fun e he => hn e (by simp [he]))
      rcases mem_tins.mp he with rfl | he
      · exact lt_of_le_of_ne (not_lt.mp hlt) (hn f (by simp))
      · exact h.1 e he

/-- A write keeps the canonical form. -/
theorem tset_wf {t : Table α} (a : Nat) (v : α) (h : tableWf d t) : tableWf d (tset d t a v) := by
  have hf : (t.filter fun e => e.1 ≠ a).Pairwise fun x y => x.1 < y.1 := h.1.filter _
  unfold tset
  split
  · exact ⟨hf, fun e he => h.2 e (List.mem_of_mem_filter he)⟩
  · rename_i hv
    refine ⟨tins_pairwise a v hf fun e he => by simpa using (List.mem_filter.mp he).2, fun e he => ?_⟩
    rcases mem_tins.mp he with rfl | he
    · exact hv
    · exact h.2 e (List.mem_of_mem_filter he)

/-- A write lists nothing but what was listed and the number written. -/
theorem mem_tset {t : Table α} {a : Nat} {v : α} {e : Nat × α} (h : e ∈ tset d t a v) : e = (a, v) ∨ e ∈ t := by
  unfold tset at h
  split at h
  · exact .inr (List.mem_of_mem_filter h)
  · exact (mem_tins.mp h).imp_right List.mem_of_mem_filter

/-- A table made from a function has the canonical form. -/
theorem tofFn_wf (lo n : Nat) (f : Nat → α) : tableWf d (tofFn d lo n f) := by
  refine ⟨?_, fun e he => ?_⟩
  · refine List.Pairwise.filterMap _ (R := (· < ·)) (fun i j hij x hx y hy => ?_) (by simpa using List.pairwise_lt_range' (s := lo) (n := n) (step := 1))
    split at hx <;> simp at hx
    split at hy <;> simp at hy
    subst hx; subst hy; exact hij
  · obtain ⟨i, -, hi⟩ := List.mem_filterMap.mp he
    split at hi <;> simp at hi
    subst hi; assumption

/-- A table made from a function lists only numbers of its range. -/
theorem mem_tofFn {lo n : Nat} {f : Nat → α} {e : Nat × α} (h : e ∈ tofFn d lo n f) :
    lo ≤ e.1 ∧ e.1 < lo + n ∧ e.2 = f e.1 := by
  obtain ⟨i, hi, he⟩ := List.mem_filterMap.mp h
  split at he <;> simp at he
  subst he
  simp [List.mem_range'] at hi
  obtain ⟨j, hj, rfl⟩ := hi
  exact ⟨by omega, by omega, rfl⟩

/-- A table made from a function reads as the function in its range. -/
theorem tget_tofFn (lo n : Nat) (f : Nat → α) {a : Nat} (h : lo ≤ a ∧ a < lo + n) : tget d (tofFn d lo n f) a = f a := by
  induction n generalizing lo with
  | zero => omega
  | succ n ih =>
    have hstep : tofFn d lo (n + 1) f =
        if f lo = d lo then tofFn d (lo + 1) n f else (lo, f lo) :: tofFn d (lo + 1) n f := by
      simp only [tofFn, List.range'_succ, List.filterMap_cons]
      by_cases hd : f lo = d lo <;> simp [hd]
    rw [hstep]
    rcases Nat.eq_or_lt_of_le h.1 with rfl | hlt
    · split
      · rename_i hd
        rw [hd]
        exact tget_of_not_mem d _ fun e he => by have := mem_tofFn d he; omega
      · simp [tget]
    · have := ih (lo + 1) ⟨by omega, by omega⟩
      split
      · exact this
      · simp only [tget, if_neg (show lo ≠ a by omega)]
        exact this

end Tables

end Sys2Proof.Machine
end

