-- ==== Sys2Proof/Laws/Queues.lean ====
section
/-! SUPPORT. The laws of the queues and of the return lines (R142, R143, R145): what a frame start, a report and a reply
can do. -/

namespace Sys2Proof.Machine

/-- What a frame start can do: begin the oldest reply, begin the oldest report on the owner's line, or leave the
transmitter IDLE. -/
theorem startFrame_cases (s : State) (x : Link) :
    (∃ r rest, s.replies.get x = r :: rest ∧
      startFrame s x = { s with replies := s.replies.put x rest, tx := s.tx.put x (some (linkFrame 0x30 (replyPayload r))) }) ∨
    (∃ r rest, s.replies.get x = [] ∧ s.arb.owner = x ∧ s.reports = r :: rest ∧
      startFrame s x =
        { s with reports := rest, tx := s.tx.put x (some (linkFrame 0x40 (reportPayload s.working.unit r))) }) ∨
    (s.replies.get x = [] ∧ (s.arb.owner = x → s.reports = []) ∧ startFrame s x = { s with tx := s.tx.put x none }) := by
  unfold startFrame
  split
  · rename_i r rest h
    exact .inl ⟨r, rest, h, rfl⟩
  · rename_i h
    split
    · rename_i ho
      split
      · rename_i r rest hr
        exact .inr (.inl ⟨r, rest, h, ho, hr, rfl⟩)
      · rename_i hr
        exact .inr (.inr ⟨h, fun _ => hr, rfl⟩)
    · rename_i ho
      exact .inr (.inr ⟨h, fun e => absurd e ho, rfl⟩)

/-- A transmitter that is not IDLE, or a check that has not ended, leaves everything as it is. -/
theorem startIfIdle_of_busy {s : State} {x : Link} (h : s.phase ≠ .running ∨ s.tx.get x ≠ none) : startIfIdle s x = s := by
  unfold startIfIdle
  split
  · rename_i hi; rcases h with h | h <;> simp_all
  · rfl

theorem startIfIdle_of_idle {s : State} {x : Link} (hp : s.phase = .running) (h : s.tx.get x = none) :
    startIfIdle s x = startFrame s x := by
  simp [startIfIdle, hp, h]

/-- A report offered while the owner's transmitter is busy is appended or dropped, and no more. -/
theorem offerReport_of_busy {s : State} (k : ReportKind) (h : s.phase ≠ .running ∨ s.tx.get s.arb.owner ≠ none) :
    offerReport s k = enqueueReport s k :=
  startIfIdle_of_busy (by simpa using h)

theorem enqueueReport_of_room {s : State} (k : ReportKind) (h : s.reports.length < 32) :
    enqueueReport s k = { s with reports := s.reports ++ [⟨k, s.dropMark⟩], dropMark := false } := by
  simp [enqueueReport, h]

theorem enqueueReport_of_full {s : State} (k : ReportKind) (h : 32 ≤ s.reports.length) :
    enqueueReport s k = { s with dropMark := true } := by
  simp [enqueueReport, Nat.not_lt.mpr h]

end Sys2Proof.Machine
end

