-- ==== Sys2Proof/Laws/Store.lean ====
section
/-! SUPPORT. The laws of the retained store, the fault list and the shadow: what a rewrite, a parity fault and an offer do. -/

namespace Sys2Proof.Machine

/-! ## Reads after writes -/

/-- A rewritten word holds its new value with good parity. -/
@[simp] theorem stored_rewrite_self (s : State) (a : Nat) (v : Word) : stored (rewrite s a v) a = ⟨v, false⟩ := by
  simp [stored]

/-- A rewrite leaves every other word as it was. -/
theorem stored_rewrite_of_ne (s : State) {a b : Nat} (v : Word) (h : b ≠ a) :
    stored (rewrite s a v) b = stored s b := by
  simp [stored, tget_tset_of_ne _ _ _ h]

@[simp] theorem readWord_rewrite_self (s : State) (a : Nat) (v : Word) : readWord (rewrite s a v) a = some v := by
  simp [readWord]

theorem readWord_rewrite_of_ne (s : State) {a b : Nat} (v : Word) (h : b ≠ a) :
    readWord (rewrite s a v) b = readWord s b := by
  simp [readWord, stored_rewrite_of_ne s v h]

/-- A word that has come to hold a parity fault. -/
@[simp] theorem stored_breakParity_self (s : State) (a : Nat) (v : Word) : stored (breakParity s a v) a = ⟨v, true⟩ := by
  simp [stored]

theorem stored_breakParity_of_ne (s : State) {a b : Nat} (v : Word) (h : b ≠ a) :
    stored (breakParity s a v) b = stored s b := by
  simp [stored, tget_tset_of_ne _ _ _ h]

/-- Only the store and the fault list change when words are rewritten. -/
theorem rewriteAll_frame (s : State) (ws : List (Nat × Word)) :
    rewriteAll s ws = { s with store := (rewriteAll s ws).store, faultList := (rewriteAll s ws).faultList } := by
  induction ws generalizing s with
  | nil => rfl
  | cons w ws ih =>
    simp only [rewriteAll, List.foldl_cons] at ih ⊢
    rw [ih (rewrite s w.1 w.2)]
    simp

/-- A word outside the words rewritten stays as it was. -/
theorem stored_rewriteAll_of_not_mem (s : State) (ws : List (Nat × Word)) {a : Nat} (h : ∀ w ∈ ws, w.1 ≠ a) :
    stored (rewriteAll s ws) a = stored s a := by
  induction ws generalizing s with
  | nil => rfl
  | cons w ws ih =>
    simp only [rewriteAll, List.foldl_cons] at ih ⊢
    rw [ih _ fun w' hw => h w' (by simp [hw]), stored_rewrite_of_ne _ _ (Ne.symm (h w (by simp)))]

/-- Where the words rewritten have different addresses, each holds its new value with good parity. -/
theorem stored_rewriteAll_of_mem (s : State) (ws : List (Nat × Word)) (hn : (ws.map Prod.fst).Nodup) {w : Nat × Word}
    (hw : w ∈ ws) : stored (rewriteAll s ws) w.1 = ⟨w.2, false⟩ := by
  induction ws generalizing s with
  | nil => simp at hw
  | cons v ws ih =>
    rw [List.map_cons, List.nodup_cons] at hn
    show stored (rewriteAll (rewrite s v.1 v.2) ws) w.1 = _
    rcases List.mem_cons.mp hw with rfl | hw
    · have hout : ∀ u ∈ ws, u.1 ≠ w.1 := fun u hu he => hn.1 (by rw [← he]; exact List.mem_map_of_mem hu)
      rw [stored_rewriteAll_of_not_mem _ _ hout]
      exact stored_rewrite_self s w.1 w.2
    · exact ih _ hn.2 hw

/-! ## The canonical form of the store -/

theorem rewrite_store_wf {s : State} (a : Nat) (v : Word) (h : tableWf defaultStored s.store) :
    tableWf defaultStored (rewrite s a v).store := tset_wf _ a _ h

theorem breakParity_store_wf {s : State} (a : Nat) (v : Word) (h : tableWf defaultStored s.store) :
    tableWf defaultStored (breakParity s a v).store := tset_wf _ a _ h

theorem rewriteAll_store_wf {s : State} (ws : List (Nat × Word)) (h : tableWf defaultStored s.store) :
    tableWf defaultStored (rewriteAll s ws).store := by
  induction ws generalizing s with
  | nil => exact h
  | cons w ws ih => exact ih (rewrite_store_wf w.1 w.2 h)

/-- A retained store in canonical form that lists an address lists no other entry for it: what it reads as is the entry. -/
theorem stored_bad_mem {s : State} {a : Nat} (h : (stored s a).bad = true) : ∃ e ∈ s.store, e.1 = a := by
  by_contra hn
  push Not at hn
  have : stored s a = defaultStored a := tget_of_not_mem _ _ hn
  rw [this] at h
  simp [defaultStored] at h

/-! ## The fault list (R165) -/

/-- What an offer to the fault list can do: nothing, append the address and offer its report, or set the overflow flag. -/
theorem offerFault_cases (s : State) (a : Nat) :
    (a ∈ s.faultList ∧ offerFault s a = s) ∨
    (a ∉ s.faultList ∧ s.faultList.length < 16 ∧
      offerFault s a = offerReport { s with faultList := s.faultList ++ [a] } (.fault a)) ∨
    (a ∉ s.faultList ∧ 16 ≤ s.faultList.length ∧ offerFault s a = { s with faultOverflow := true }) := by
  unfold offerFault
  split
  · exact .inl ⟨‹_›, rfl⟩
  · split
    · exact .inr (.inl ⟨‹_›, ‹_›, rfl⟩)
    · exact .inr (.inr ⟨‹_›, by omega, rfl⟩)

/-- The words of the store are not what an offer changes. -/
@[simp] theorem stored_offerFault (s : State) (a b : Nat) : stored (offerFault s a) b = stored s b := by
  simp [stored]

@[simp] theorem stored_offerReport (s : State) (k : ReportKind) (b : Nat) : stored (offerReport s k) b = stored s b := by
  simp [stored]

@[simp] theorem stored_queueReply (s : State) (x : Link) (r : Reply) (b : Nat) :
    stored (queueReply s x r) b = stored s b := by
  simp [stored]

/-! ## The shadow (R149) -/

/-- A loaded shadow holds each live word's stored value. -/
theorem shadowWord_loadShadow (s : State) {off : Nat} (h : 3 ≤ off ∧ off < 2627) :
    shadowWord (loadShadow s) off = (liveStored s off).val := by
  simp only [shadowWord, loadShadow]
  exact tget_tofFn zeroWord 3 2624 (fun off => (liveStored s off).val) ⟨h.1, by omega⟩

theorem loadShadow_wf (s : State) : tableWf zeroWord (loadShadow s).shadow := tofFn_wf _ _ _ _

end Sys2Proof.Machine
end

