-- ==== Sys2Proof/Laws/Requests.lean ====
section
/-! SUPPORT. The laws of the taking of a request (R10, R135, R136, R142): one lemma for each way it can go. -/

namespace Sys2Proof.Machine

theorem reply_eq_answered (r : Req) (code : Byte) (a : Answer) :
    reply r code a = answered a.state r code a.result a.data := by
  simp [reply, answered, broadcast]

theorem answered_broadcast {r : Req} (s : State) (code : Byte) (res : Result) (data : List Byte) (h : r.unit = 0) :
    answered s r code res data = s := by
  simp [answered, h]

theorem noSlot_eq_false {s : State} {r : Req} (h : taken s r) : noSlot s r = false := by
  rcases h.2 with h | h
  · simp [noSlot, broadcast, h]
  · simp [noSlot]; omega

/-- A valid request from a link that may make it runs, and is answered. -/
theorem takeWith_run {s : State} {r : Req} (code : Byte) {valid ownerOnly : Bool} (run : State → Answer)
    (h : taken s r) (hv : valid = true) (ho : ownerOnly = true → s.arb.owner = r.link) :
    takeWith s r code valid ownerOnly run = answered (run s).state r code (run s).result (run s).data := by
  unfold takeWith
  rw [if_neg (by simp [h.1]), noSlot_eq_false h]
  cases ownerOnly <;> simp_all [reply_eq_answered]

/-- An owner-only request from the standby is refused with NOT_OWNER. -/
theorem takeWith_standby {s : State} {r : Req} (code : Byte) {valid : Bool} (run : State → Answer)
    (h : taken s r) (hv : valid = true) (ho : s.arb.owner ≠ r.link) :
    takeWith s r code valid true run = reply r code (refusal s code .notOwner) := by
  unfold takeWith
  rw [if_neg (by simp [h.1]), noSlot_eq_false h]
  simp [hv, ho]

/-- A malformed request is refused with BAD_REQUEST, whatever link it comes from. -/
theorem takeWith_malformed {s : State} {r : Req} (code : Byte) (ownerOnly : Bool) (run : State → Answer) (h : taken s r) :
    takeWith s r code false ownerOnly run = reply r code (refusal s code .badRequest) := by
  unfold takeWith
  rw [if_neg (by simp [h.1]), noSlot_eq_false h]
  simp

/-- A request that finds no slot is dropped, and counted. -/
theorem takeWith_dropped {s : State} {r : Req} (code : Byte) (valid ownerOnly : Bool) (run : State → Answer)
    (hp : s.phase = .running) (h : noSlot s r = true) : takeWith s r code valid ownerOnly run = countDropped s r.link := by
  simp [takeWith, hp, h]

/-- Before the end of the power-up check nothing is executed. -/
theorem takeWith_waiting {s : State} {r : Req} (code : Byte) (valid ownerOnly : Bool) (run : State → Answer)
    (hp : s.phase ≠ .running) : takeWith s r code valid ownerOnly run = s := by
  simp [takeWith, hp]

/-- A request of the control owner with its parameters in range is decided by its owning block and answered. -/
theorem takeRequest_owner {s : State} {r : Req} {q : Request} (h : takenFromOwner s r) (hq : q.inRange = true) :
    takeRequest s r q =
      answered (answer s r.link q).state r q.code (answer s r.link q).result (answer s r.link q).data :=
  takeWith_run q.code _ h.1 hq fun _ => h.2

/-- A request of the class of either link (R136). -/
theorem takeRequest_either {s : State} {r : Req} {q : Request} (h : taken s r) (hq : q.inRange = true)
    (ho : q.ownerOnly = false) :
    takeRequest s r q =
      answered (answer s r.link q).state r q.code (answer s r.link q).result (answer s r.link q).data :=
  takeWith_run q.code _ h hq (by simp [ho])

/-- A WRITE of one word from the control owner. -/
theorem takeWordWrite_owner {s : State} {r : Req} (a : Nat) (v : Word) (h : takenFromOwner s r) :
    takeWordWrite s r a v =
      answered (writeFrom s r.link a [v]).1 r 0x02 (writeFrom s r.link a [v]).2.2
        [byteOf (writeFrom s r.link a [v]).2.1] :=
  takeWith_run 0x02 _ h.1 rfl fun _ => h.2

/-! ## Outcomes -/

theorem settle_next {s : State} (h : s.followStuck = false) : settle s = .next s := by
  simp [settle, h]

theorem settle_eq_next {s t : State} : settle s = .next t ↔ s.followStuck = false ∧ t = s := by
  unfold settle
  cases h : s.followStuck <;> simp [eq_comm]

@[simp] theorem answered_followStuck (s : State) (r : Req) (code : Byte) (res : Result) (data : List Byte) :
    (answered s r code res data).followStuck = s.followStuck := by
  unfold answered; split <;> simp

end Sys2Proof.Machine
end

