-- ==== Sys2Proof/Laws/Frames.lean ====
section
/-! SUPPORT. The frames of the shared operations: for each, the fields of State that it can change, as one equation. A later
proof cites these and does not unfold the operation. -/

namespace Sys2Proof.Machine

/-! ## Queues (R142, R143, R145) -/

theorem startFrame_frame (s : State) (x : Link) :
    startFrame s x = { s with
      replies := (startFrame s x).replies, tx := (startFrame s x).tx, reports := (startFrame s x).reports } := by
  ext1 <;> simp

theorem startIfIdle_frame (s : State) (x : Link) :
    startIfIdle s x = { s with
      replies := (startIfIdle s x).replies, tx := (startIfIdle s x).tx, reports := (startIfIdle s x).reports } := by
  ext1 <;> simp

theorem offerReport_frame (s : State) (k : ReportKind) :
    offerReport s k = { s with
      replies := (offerReport s k).replies, tx := (offerReport s k).tx, reports := (offerReport s k).reports,
      dropMark := (offerReport s k).dropMark } := by
  ext1 <;> simp

theorem queueReply_frame (s : State) (x : Link) (r : Reply) :
    queueReply s x r = { s with
      replies := (queueReply s x r).replies, tx := (queueReply s x r).tx, reports := (queueReply s x r).reports } := by
  ext1 <;> simp

theorem offerFault_frame (s : State) (a : Nat) :
    offerFault s a = { s with
      replies := (offerFault s a).replies, tx := (offerFault s a).tx, reports := (offerFault s a).reports,
      dropMark := (offerFault s a).dropMark, faultList := (offerFault s a).faultList,
      faultOverflow := (offerFault s a).faultOverflow } := by
  ext1 <;> simp

/-- A reply touches the queues and the transmitters only. -/
theorem answered_frame (s : State) (r : Req) (code : Byte) (res : Result) (data : List Byte) :
    answered s r code res data = { s with
      replies := (answered s r code res data).replies, tx := (answered s r code res data).tx,
      reports := (answered s r code res data).reports } := by
  unfold answered
  split
  · rfl
  · exact queueReply_frame _ _ _

/-! ## The arbiter (R21, R25 to R34) -/

/-- A handover trigger moves the console source: it enters HANDOVER (or completes it at once), enters HOLD, or leaves a
source without a console as it is (R31). -/
theorem trigger_cases (s : State) (k : Table Nat) :
    trigger s k = { s with arb := { s.arb with
      source := if s.working.handoverTime = 0 then handoverDone s.working.sourceMode else .handover,
      snapshot := k, elapsed := 0 } } ∨
    trigger s k = enterHold s k ∨
    ((s.arb.source = .hold ∨ s.arb.source = .lossFade ∨ s.arb.source = .dark) ∧ trigger s k = s) := by
  unfold trigger
  split
  · exact .inl rfl
  · split
    · rename_i h; exact .inr (.inr ⟨.inl h, rfl⟩)
    · rename_i h; exact .inr (.inr ⟨.inr (.inl h), rfl⟩)
    · rename_i h; exact .inr (.inr ⟨.inr (.inr h), rfl⟩)
    all_goals exact .inr (.inl rfl)

theorem trigger_frame (s : State) (k : Table Nat) : trigger s k = { s with arb := (trigger s k).arb } := by
  rcases trigger_cases s k with h | h | ⟨-, h⟩
  · rw [h]
  · rw [h]; rfl
  · rw [h]

/-- A change of owner (R21): the new owner, no lock, the holdoff, and the report. -/
theorem changeOwner_arb (s : State) (x : Link) (c : Cause) :
    (changeOwner s x c).arb = { s.arb with owner := x, lock := false, holdoff := true } := by
  simp [changeOwner]

theorem changeOwner_frame (s : State) (x : Link) (c : Cause) :
    changeOwner s x c = { s with
      arb := (changeOwner s x c).arb, replies := (changeOwner s x c).replies, tx := (changeOwner s x c).tx,
      reports := (changeOwner s x c).reports, dropMark := (changeOwner s x c).dropMark } := by
  ext1 <;> simp [changeOwner]

theorem returnTo_frame (s : State) (x : Link) :
    returnTo s x = { s with
      arb := (returnTo s x).arb, replies := (returnTo s x).replies, tx := (returnTo s x).tx,
      reports := (returnTo s x).reports, dropMark := (returnTo s x).dropMark } := by
  unfold returnTo
  split
  · ext1 <;> simp
  · exact changeOwner_frame _ _ _

theorem noticeLive_frame (s : State) (x : Link) (k : Table Nat) :
    noticeLive s x k = { s with
      arb := (noticeLive s x k).arb, replies := (noticeLive s x k).replies, tx := (noticeLive s x k).tx,
      reports := (noticeLive s x k).reports, dropMark := (noticeLive s x k).dropMark } := by
  unfold noticeLive
  split
  · rfl
  · split
    · rw [trigger_frame, returnTo_frame]
    · split
      · rw [trigger_frame, changeOwner_frame]
      · split
        · rw [trigger_frame]
        · rfl

theorem noticeDown_frame (s : State) (x : Link) (k : Table Nat) :
    noticeDown s x k = { s with
      arb := (noticeDown s x k).arb, replies := (noticeDown s x k).replies, tx := (noticeDown s x k).tx,
      reports := (noticeDown s x k).reports, dropMark := (noticeDown s x k).dropMark } := by
  unfold noticeDown
  split
  · rfl
  · split
    · dsimp only
      split
      · rw [trigger_frame, changeOwner_frame]
      · rfl
    · split
      · rw [trigger_frame]
      · rfl

/-! ## The fade engine (R59, R62 to R65) -/

/-- The completion of a cue changes its playback, the take order, and the queues. -/
theorem complete_frame (s : State) (p : PlaybackNo) :
    complete s p = { s with
      playbacks := (complete s p).playbacks, takeOrder := (complete s p).takeOrder, replies := (complete s p).replies,
      tx := (complete s p).tx, reports := (complete s p).reports, dropMark := (complete s p).dropMark } := by
  unfold complete
  simp only
  split
  · split
    · ext1 <;> simp
    · rfl
  · rfl

/-- What completion makes of its playback. -/
theorem playbackAt_complete (s : State) (p : PlaybackNo) :
    playbackAt (complete s p) p =
      { playbackAt s p with
        list := completedList (playbackAt s p).list, state := .atCue, follow := (playbackAt s p).cue.bind (·.follow) } := by
  unfold complete
  simp only
  split
  · split <;> simp [playbackAt, setPlayback]
  · simp [playbackAt, setPlayback]

/-- The other playbacks are not what a completion changes. -/
theorem playbackAt_complete_of_ne (s : State) {p q : PlaybackNo} (h : q ≠ p) :
    playbackAt (complete s p) q = playbackAt s q := by
  unfold complete
  simp only
  split
  · split
    · simpa [playbackAt] using playbackAt_setPlayback_of_ne s _ h
    · exact playbackAt_setPlayback_of_ne s _ h
  · exact playbackAt_setPlayback_of_ne s _ h

/-- What the start of a cue can do: be refused with its faulted words offered, or set the fade up (R48, R60 to R63). -/
theorem beginCue_cases (s : State) (p : PlaybackNo) (e : IndexEntry) (by_ : TakenBy) :
    (∃ bad, readCue s e.position = .error bad ∧ beginCue s p e by_ = (offerFaults s bad, .refused .fault)) ∨
    ∃ d, readCue s e.position = .ok d ∧ beginCue s p e by_ = (afterSetUp s p e d by_, .setUp) := by
  unfold beginCue
  split
  · rename_i bad h; exact .inl ⟨bad, h, rfl⟩
  · rename_i d h; exact .inr ⟨d, h, rfl⟩

/-- A completion that does not follow at once ends its chain. -/
theorem completeChain_of_no_follow {s : State} {p : PlaybackNo} (n : Nat)
    (h : (playbackAt s p).cue.bind (·.follow) ≠ some 0) : completeChain (n + 1) s p = complete s p := by
  unfold completeChain
  simp only
  rw [if_neg (by simpa [playbackAt_complete] using h)]

/-- What a follow takes, where it takes no cue, and where it takes one (R65). -/
theorem beginNext_of_followTakes {settles : State → State → Prop} {p : PlaybackNo} {u v : State}
    (h : followTakes settles p u v) :
    ((beginNext u p).2 ≠ .setUp ∧ (beginNext u p).1 = v) ∨
      ((beginNext u p).2 = .setUp ∧ settles (beginNext u p).1 v) := by
  rcases h with ⟨hb, rfl⟩ | ⟨st, c, hb, hc, ⟨hn, rfl⟩ | ⟨a, hn, rfl⟩ | ⟨e, hn, ⟨bad, hr, rfl⟩ | ⟨d, hr, hv⟩⟩⟩
  · exact .inl (by simp [beginNext, hb])
  · exact .inl (by simp [beginNext, hb, hc, hn])
  · exact .inl (by simp [beginNext, hb, hc, hn])
  · exact .inl (by simp [beginNext, hb, hc, hn, beginCue, hr])
  · exact .inr (by simpa [beginNext, hb, hc, hn, beginCue, hr, afterSetUp] using hv)

/-- The completion that follows a set-up at once leaves what `cueSettles` says, whatever bound of the chain is enough. -/
theorem completeChain_of_cueSettles {p : PlaybackNo} {n m : Nat} {u v : State} (hm : n ≤ m) (h : cueSettles p n u v) :
    (if partsDone (playbackAt u p) then completeChain m u p else u) = v := by
  induction n generalizing m u with
  | zero => simp [h.1, h.2]
  | succ n ih =>
    obtain ⟨m, rfl⟩ : ∃ k, m = k + 1 := ⟨m - 1, by omega⟩
    unfold cueSettles at h
    split at h
    · rename_i hd; simp [hd, h]
    · rename_i hd
      simp only [Bool.not_eq_false] at hd
      rw [if_pos hd, completeChain]
      split at h
      · rename_i hf; rw [if_neg hf, h]
      · rename_i hf
        rw [if_pos (by simpa using hf)]
        rcases beginNext_of_followTakes h with ⟨hs, rfl⟩ | ⟨hs, hv⟩
        · simp [hs]
        · simpa [hs] using ih (by omega) hv

/-- A playback that stays at a step expiry is advanced, and nothing else changes. -/
theorem tickPlayback_of_stays {s : State} {p : PlaybackNo} (h : staysAtStep (playbackAt s p) = true) :
    tickPlayback s p = setPlayback s p (steppedPlayback (playbackAt s p)) := by
  have self : setPlayback s p (playbackAt s p) = s := by
    ext1 <;> simp [playbackAt]
  cases hs : (playbackAt s p).state <;> simp only [staysAtStep, hs] at h <;> simp only [tickPlayback, steppedPlayback, hs]
  case unbound => exact self.symm
  case ready => exact self.symm
  case paused => exact self.symm
  case fading => simp_all
  case releasing => simp_all
  case atCue =>
    cases hf : (playbackAt s p).follow with
    | none =>
      rw [hf] at h
      have same : setPlayback s p ⟨.atCue, (playbackAt s p).cue, (playbackAt s p).up, (playbackAt s p).down,
          (playbackAt s p).profile, none, (playbackAt s p).list⟩ = setPlayback s p (playbackAt s p) := by rw [← hs, ← hf]
      exact (same.trans self).symm
    | some n =>
      rw [hf] at h
      have hn : ¬ n ≤ 1 := by simpa using h
      simp [hn]

/-! ## The composer and the table operations -/

theorem need_eq_ok {s : State} {a : Nat} {w : Word} : need s a = .ok w ↔ readWord s a = some w := by
  unfold need; split <;> simp_all

theorem need_eq_error {s : State} {a b : Nat} : need s a = .error b ↔ readWord s a = none ∧ b = a := by
  unfold need; cases readWord s a <;> simp [eq_comm]

/-- The search passes a region that covers no circuit, and one that is read and does not cover the circuit. -/
theorem searchRegions_passes {s : State} {c r : Nat} (rs : List Nat)
    (h : needLive s (regionOff r + 1) = .ok 0 ∨ ∃ n b, needLive s (regionOff r + 1) = .ok n ∧
      needLive s (regionOff r) = .ok b ∧ covers b.toNat n.toNat c = false) :
    searchRegions s c (r :: rs) = searchRegions s c rs := by
  rw [searchRegions]
  rcases h with h | ⟨n, b, hn, hb, hc⟩
  · simp [h, bind, Except.bind]
  · by_cases h0 : n = 0 <;> simp [hn, hb, hc, h0, bind, Except.bind]

/-- The search ends at the first region that covers the circuit. -/
theorem searchRegions_covers {s : State} {c r : Nat} {n b : Word} (rs : List Nat)
    (hn : needLive s (regionOff r + 1) = .ok n) (hb : needLive s (regionOff r) = .ok b)
    (hc : covers b.toNat n.toNat c = true) : searchRegions s c (r :: rs) = .ok (some (r, b.toNat)) := by
  rw [searchRegions]
  have h0 : n ≠ 0 := by
    rintro rfl
    have z : BitVec.toNat (0 : Word) = 0 := rfl
    simp only [covers, z, Bool.and_eq_true, decide_eq_true_eq] at hc
    omega
  simp only [hn, hb, hc, bind, Except.bind, if_neg h0, if_true]

/-- A composition that completes has drawn a free value exactly where the patched level is one. -/
theorem compose_drew {s : State} {c period : Nat} {u : Composed} (h : compose s c period = .ok u) :
    u.drew = drawsFree s c := by
  unfold compose at h
  unfold drawsFree
  cases hp : patchStage s c with
  | error a => simp [hp, bind, Except.bind] at h
  | ok stage =>
    rw [hp] at h
    cases stage with
    | ungoverned v => simp [bind, Except.bind] at h; simp [h]
    | parked l => simp [bind, Except.bind] at h; simp [← h]
    | governed r curve v =>
      simp only [bind, Except.bind] at h
      split at h
      · cases h
      · cases h; rfl

/-- A composition changes the previous output of its circuit, or offers a fault; either counts a free value drawn. -/
theorem composeCircuit_cases (s : State) (c period : Nat) :
    ∃ n, (n = if drawsFree s c then s.freeDraws + 1 else s.freeDraws) ∧
      ((∃ u, compose s c period = .ok u ∧ composeCircuit s c period =
          ({ s with prevOut := tset zeroLevel s.prevOut c u.level, freeDraws := n }, u.level)) ∨
        ∃ a, compose s c period = .error a ∧
          composeCircuit s c period = ({ offerFault s a with freeDraws := n }, previousOutput s c)) := by
  refine ⟨_, rfl, ?_⟩
  unfold composeCircuit
  cases h : compose s c period with
  | ok u => exact .inl ⟨u, rfl, rfl⟩
  | error a => exact .inr ⟨a, rfl, rfl⟩

/-- A WRITE's words: those before the first refused one are taken one by one, each on the state that the one before
leaves. -/
theorem writeWords_spec (s : State) (a : Nat) (ws : List Word) (ha : a < 0x1000000) :
    ∃ u : Nat → State, u 0 = s ∧ (writeWords s a ws).2.1 ≤ ws.length ∧
      (∀ i < (writeWords s a ws).2.1, writeWord (u i) ((a + i) % 0x1000000) (ws.getD i 0) = .taken (u (i + 1))) ∧
      ((writeWords s a ws).2.1 = ws.length → (writeWords s a ws).2.2 = .ok ∧
        (writeWords s a ws).1 = u (writeWords s a ws).2.1) ∧
      ((writeWords s a ws).2.1 < ws.length →
        writeWord (u (writeWords s a ws).2.1) ((a + (writeWords s a ws).2.1) % 0x1000000)
          (ws.getD (writeWords s a ws).2.1 0) = .refused (writeWords s a ws).2.2 (writeWords s a ws).1) := by
  induction ws generalizing s a with
  | nil => exact ⟨fun _ => s, by simp [writeWords]⟩
  | cons w ws ih =>
    have h0 : (a + 0) % 0x1000000 = a := by omega
    cases hw : writeWord s a w with
    | refused r t => exact ⟨fun _ => s, by simp [writeWords, hw, Nat.mod_eq_of_lt ha]⟩
    | taken t =>
      obtain ⟨u, hu, hle, hstep, hall, hend⟩ := ih t ((a + 1) % 0x1000000) (Nat.mod_lt _ (by decide))
      have shift (i : Nat) : ((a + 1) % 0x1000000 + i) % 0x1000000 = (a + (i + 1)) % 0x1000000 := by omega
      simp only [shift] at hstep hend
      refine ⟨fun i => match i with | 0 => s | i + 1 => u i, rfl, ?_⟩
      simp only [writeWords, hw, List.length_cons, Nat.add_le_add_iff_right, Nat.add_right_cancel_iff,
        Nat.add_lt_add_iff_right, List.getD_cons_succ]
      refine ⟨hle, ?_, hall, hend⟩
      intro i hi
      cases i with
      | zero => simp only [h0, List.getD_cons_zero, hu, hw]
      | succ i => exact hstep i (by omega)

/-! ## The order within a step expiry (R73, log 15), and the count of a region (R151, log 27) -/

/-- Where no key has its place, no key is taken. -/
theorem tickKeysAt_elsewhere {o : StepOrder} {i : Nat} (s : State) (h : ∀ k, (keyPlace o k).val ≠ i) :
    tickKeysAt o i s = s := by
  simp [tickKeysAt, h]

theorem regionCountTaken_of_le {base : Word} (v : Word) (h : base.toNat ≤ 1025) :
    (regionCountTaken base v).toNat = min v.toNat (1025 - base.toNat) := by
  have := v.isLt
  simp only [regionCountTaken, h, if_true, wordOf, BitVec.toNat_ofNat]
  omega

/-! ## The progress of the slot (R155, log 24) -/

theorem count24_of_lt {n : Nat} (h : n < 0x1000000) : count24 n = n := by simp [count24, h]

theorem count24_lt (n : Nat) : count24 n < 0x1000000 := by
  unfold count24
  split
  · assumption
  · exact (Config.longCount n).isLt

end Sys2Proof.Machine
end

