-- ==== Sys2Proof/WellFormed.lean ====
section
/-! DEFINITION. Which operands name something: the bounds the spec sets on a command's operands that the operands'
types do not set. (A parameter of a REQUEST outside its range is not ill-formed: R135 gives it a reply.) -/

namespace Sys2Proof

/-- A command is well-formed when its operands lie inside what its row speaks of: COUNTER_CLEAR names a counter word
(status offsets 2 to 23), a bank write an offset inside the bank, and PARITY_FAULT a retained word (R163). -/
def Instr.wellFormed : Instr → Bool
  | .counterClear _ off _ => 2 ≤ off && off ≤ 23
  | .activeBankWrite _ off _ => off < Machine.bankWords
  | .stagedBankWrite _ _ off _ => off < Machine.bankWords
  | .parityFault addr _ => Machine.retained addr.toNat
  | .fullReset | .resetRelease | .powerUpCheckEnd | .frameComplete _ _ | .gapError _ | .oversizeFrame _ _
  | .drainEnd _ | .lossTimerStep _ | .lossTimerExpiry _ | .arbiterStep | .handoverComplete | .lossFadeStart
  | .lossFadeEnd | .index _ _ | .write _ _ | .sourceModeWrite _ _ | .preferredLinkWrite _ _ | .boundStackWrite _ _ _
  | .unitNumberWrite _ _ | .lineEnableWrite _ _ _ | .read _ _ | .hold _ | .apply _ | .discard _ | .copy _ _ _ _
  | .copyWord | .verify _ _ | .verifyWord | .switch _ _ | .go _ _ | .back _ _ | .goto _ _ _ _ | .pause _ _
  | .resume _ _ | .release _ _ _ | .take _ | .lock _ | .unlock _ | .restart _ | .fadeStep _ | .partDelayEnd _ _ _
  | .cueCompletion _ _ | .releaseCompletion _ _ | .followExpiry _ _ | .keyInputChange _ _ | .keyPressed _ _
  | .keyReleased _ _ | .lineStep _ | .periodTimerExpiry _ | .circuitComposition _ | .endOfFrame _
  | .returnFrameStart _ | .returnFrameEnd _ | .receivedByte _ _ => true

end Sys2Proof
end

