-- ==== Sys2Proof/Laws/PerInstr.lean ====
section
/-! SUPPORT. One statement about every command as syntax: a well-formed command that names a word of the table space by itself
names one that exists. -/

namespace Sys2Proof.Laws.Bounds

open Sys2Proof Sys2Proof.Machine

/-- The table-space address of the word that a command names by its operands alone, for the rows that name one. -/
def namedAddress : Instr → Option Nat
  | .sourceModeWrite _ _ => some (globalAddr 0)
  | .preferredLinkWrite _ _ => some (globalAddr 1)
  | .unitNumberWrite _ _ => some (globalAddr 9)
  | .boundStackWrite _ p _ => some (playbackAddr p 0)
  | .lineEnableWrite _ k _ => some (lineAddr k)
  | .counterClear _ off _ => some (statusAddr off)
  | .stagedBankWrite _ b off _ => some (bankBase b + off)
  | .parityFault addr _ => some addr.toNat
  | .fullReset | .resetRelease | .powerUpCheckEnd | .frameComplete _ _ | .gapError _ | .oversizeFrame _ _
  | .drainEnd _ | .lossTimerStep _ | .lossTimerExpiry _ | .arbiterStep | .handoverComplete | .lossFadeStart
  | .lossFadeEnd | .index _ _ | .write _ _ | .activeBankWrite _ _ _ | .read _ _ | .hold _ | .apply _
  | .discard _ | .copy _ _ _ _ | .copyWord | .verify _ _ | .verifyWord | .switch _ _ | .go _ _ | .back _ _
  | .goto _ _ _ _ | .pause _ _ | .resume _ _ | .release _ _ _ | .take _ | .lock _ | .unlock _ | .restart _
  | .fadeStep _ | .partDelayEnd _ _ _ | .cueCompletion _ _ | .releaseCompletion _ _ | .followExpiry _ _
  | .keyInputChange _ _ | .keyPressed _ _ | .keyReleased _ _ | .lineStep _ | .periodTimerExpiry _
  | .circuitComposition _ | .endOfFrame _ | .returnFrameStart _ | .returnFrameEnd _ | .receivedByte _ _ => none

/-- A well-formed command names only words that exist. -/
def Statement (i : Instr) : Prop := i.wellFormed = true → ∀ a, namedAddress i = some a → mapped a = true

theorem none_named {i : Instr} (h : namedAddress i = none) : Statement i := fun _ a ha => by simp [h] at ha

theorem mapped_of_retained {a : Nat} (h : retained a = true) : mapped a = true := by
  unfold retained at h
  unfold mapped
  cases hp : placeOf a <;> simp_all

/-- Every word of a bank is a retained word. -/
theorem bank_retained (b : Bank) {off : Nat} (h : off < bankWords) : retained (bankBase b + off) = true := by
  have h' : off < 79683 := h
  cases b
  · have : placeOf (0x100000 + off) = .bank .b0 (0x100000 + off - 0x100000) := by
      unfold placeOf
      rw [if_neg (by omega), if_neg (by omega), dif_neg (by omega), if_neg (by omega), if_neg (by omega), if_neg (by omega),
        if_pos (by omega)]
    simp [retained, bankBase, this]
  · have : placeOf (0x140000 + off) = .bank .b1 (0x140000 + off - 0x140000) := by
      unfold placeOf
      rw [if_neg (by omega), if_neg (by omega), dif_neg (by omega), if_neg (by omega), if_neg (by omega), if_neg (by omega),
        if_neg (by omega), if_pos (by omega)]
    simp [retained, bankBase, this]

theorem fullReset : Statement .fullReset := none_named rfl
theorem resetRelease : Statement .resetRelease := none_named rfl
theorem powerUpCheckEnd : Statement .powerUpCheckEnd := none_named rfl
theorem frameComplete (x : Link) (b : Byte) : Statement (.frameComplete x b) := none_named rfl
theorem gapError (x : Link) : Statement (.gapError x) := none_named rfl
theorem oversizeFrame (x : Link) (b : Byte) : Statement (.oversizeFrame x b) := none_named rfl
theorem drainEnd (x : Link) : Statement (.drainEnd x) := none_named rfl
theorem lossTimerStep (x : Link) : Statement (.lossTimerStep x) := none_named rfl
theorem lossTimerExpiry (x : Link) : Statement (.lossTimerExpiry x) := none_named rfl
theorem arbiterStep : Statement .arbiterStep := none_named rfl
theorem handoverComplete : Statement .handoverComplete := none_named rfl
theorem lossFadeStart : Statement .lossFadeStart := none_named rfl
theorem lossFadeEnd : Statement .lossFadeEnd := none_named rfl
theorem index (r : Req) (addr : Addr) : Statement (.index r addr) := none_named rfl
theorem write (r : Req) (ws : List Word) : Statement (.write r ws) := none_named rfl
theorem sourceModeWrite (r : Req) (v : Word) : Statement (.sourceModeWrite r v) := fun _ _ h => by cases h; decide
theorem preferredLinkWrite (r : Req) (v : Word) : Statement (.preferredLinkWrite r v) := fun _ _ h => by cases h; decide
theorem boundStackWrite (r : Req) (p : PlaybackNo) (v : Word) : Statement (.boundStackWrite r p v) := fun _ _ h => by
  cases h; clear * -; revert p; decide
theorem unitNumberWrite (r : Req) (v : Word) : Statement (.unitNumberWrite r v) := fun _ _ h => by cases h; decide
theorem lineEnableWrite (r : Req) (k : LineNo) (v : Word) : Statement (.lineEnableWrite r k v) := fun _ _ h => by
  cases h; clear * -; revert k; decide
theorem counterClear (r : Req) (off : Nat) (v : Word) : Statement (.counterClear r off v) := fun w _ h => by
  cases h
  have : 2 ≤ off ∧ off ≤ 23 := by simpa [Instr.wellFormed] using w
  obtain ⟨h1, h2⟩ := this
  interval_cases off <;> decide
theorem activeBankWrite (r : Req) (off : Nat) (v : Word) : Statement (.activeBankWrite r off v) := none_named rfl
theorem stagedBankWrite (r : Req) (bank : Bank) (off : Nat) (v : Word) : Statement (.stagedBankWrite r bank off v) := fun w _ h => by
  cases h; exact mapped_of_retained (bank_retained bank (by simpa [Instr.wellFormed] using w))
theorem read (r : Req) (count : Word) : Statement (.read r count) := none_named rfl
theorem hold (r : Req) : Statement (.hold r) := none_named rfl
theorem apply (r : Req) : Statement (.apply r) := none_named rfl
theorem discard (r : Req) : Statement (.discard r) := none_named rfl
theorem copy (r : Req) (src dst count : Addr) : Statement (.copy r src dst count) := none_named rfl
theorem copyWord : Statement .copyWord := none_named rfl
theorem verify (r : Req) (bank : Byte) : Statement (.verify r bank) := none_named rfl
theorem verifyWord : Statement .verifyWord := none_named rfl
theorem switch (r : Req) (bank : Byte) : Statement (.switch r bank) := none_named rfl
theorem go (r : Req) (playback : Byte) : Statement (.go r playback) := none_named rfl
theorem back (r : Req) (playback : Byte) : Statement (.back r playback) := none_named rfl
theorem goto (r : Req) (playback : Byte) (cue : Word) (time : Option Word) : Statement (.goto r playback cue time) := none_named rfl
theorem pause (r : Req) (playback : Byte) : Statement (.pause r playback) := none_named rfl
theorem resume (r : Req) (playback : Byte) : Statement (.resume r playback) := none_named rfl
theorem release (r : Req) (playback : Byte) (time : Option Word) : Statement (.release r playback time) := none_named rfl
theorem take (r : Req) : Statement (.take r) := none_named rfl
theorem lock (r : Req) : Statement (.lock r) := none_named rfl
theorem unlock (r : Req) : Statement (.unlock r) := none_named rfl
theorem restart (r : Req) : Statement (.restart r) := none_named rfl
theorem fadeStep (o : StepOrder) : Statement (.fadeStep o) := none_named rfl
theorem partDelayEnd (p : PlaybackNo) (part : PartName) (o : StepOrder) : Statement (.partDelayEnd p part o) := none_named rfl
theorem cueCompletion (p : PlaybackNo) (o : StepOrder) : Statement (.cueCompletion p o) := none_named rfl
theorem releaseCompletion (p : PlaybackNo) (o : StepOrder) : Statement (.releaseCompletion p o) := none_named rfl
theorem followExpiry (p : PlaybackNo) (o : StepOrder) : Statement (.followExpiry p o) := none_named rfl
theorem keyInputChange (k : Key) (pressed : Bool) : Statement (.keyInputChange k pressed) := none_named rfl
theorem keyPressed (k : Key) (o : StepOrder) : Statement (.keyPressed k o) := none_named rfl
theorem keyReleased (k : Key) (o : StepOrder) : Statement (.keyReleased k o) := none_named rfl
theorem lineStep (k : LineNo) : Statement (.lineStep k) := none_named rfl
theorem periodTimerExpiry (k : LineNo) : Statement (.periodTimerExpiry k) := none_named rfl
theorem circuitComposition (k : LineNo) : Statement (.circuitComposition k) := none_named rfl
theorem endOfFrame (k : LineNo) : Statement (.endOfFrame k) := none_named rfl
theorem returnFrameStart (x : Link) : Statement (.returnFrameStart x) := none_named rfl
theorem returnFrameEnd (x : Link) : Statement (.returnFrameEnd x) := none_named rfl
theorem receivedByte (x : Link) (b : Byte) : Statement (.receivedByte x b) := none_named rfl
theorem parityFault (addr : Addr) (v : Word) : Statement (.parityFault addr v) := fun w _ h => by
  cases h; exact mapped_of_retained w

end Sys2Proof.Laws.Bounds
end

