-- ==== Sys2Proof/Tests/Slice0.lean ====
section
/-! SUPPORT. Tests of the model: an ill-formed term for each check of WellFormed, results the spec works out or states, and
for every obligation with hypotheses a concrete state that meets them (`meets_<the obligation's name>`). -/

namespace Sys2Proof.Tests

open Sys2Proof Sys2Proof.Machine

/-! ## Small states -/

def fromA : Req := ⟨.a, 1, 7⟩
def fromB : Req := ⟨.b, 1, 7⟩

/-- A link receiver that is LIVE. -/
def liveRx : LinkRx := { LinkRx.reset with state := .live, timer := some 0 }

/-- After the power-up check, with both links LIVE, link A owning, the console in NORMAL and both return lines IDLE. -/
def quiet : State :=
  { State.reset with
    phase := .running, links := ⟨liveRx, liveRx⟩, arb := { Arbiter.reset with source := .normal } }

/-- The same with both return lines sending, so that replies and reports stay in their queues. -/
def busy : State := { quiet with tx := ⟨some [0xE7], some [0xE7]⟩ }

/-- Words written at offsets of a bank. -/
def bankWith (b : Bank) (ws : List (Nat × Nat)) (s : State) : State :=
  ws.foldl (fun t w => rewrite t (bankBase b + w.1) (wordOf w.2)) s

/-- Link A's receiver with a reception state. -/
def receiving (rx : Reception) : State := setLink busy .a { liveRx with rx := rx }

/-- What a command leaves; a command that stops leaves the state as it is. -/
def after (i : Instr) (s : State) : State :=
  match exec i s with
  | .next t => t
  | .fault _ | .refused _ => s

/-- What several commands leave. -/
def afterAll (is : List Instr) (s : State) : State := is.foldl (fun t i => after i t) s

/-! ## WellFormed -/

theorem test_wellFormed_refuses_a_counter_offset_below : Instr.wellFormed (.counterClear fromA 1 0) = false := by decide
theorem test_wellFormed_refuses_a_counter_offset_above : Instr.wellFormed (.counterClear fromA 24 0) = false := by decide
theorem test_wellFormed_refuses_an_active_bank_offset : Instr.wellFormed (.activeBankWrite fromA 79683 0) = false := by decide
theorem test_wellFormed_refuses_a_staged_bank_offset :
    Instr.wellFormed (.stagedBankWrite fromA .b1 79683 0) = false := by decide
theorem test_wellFormed_refuses_a_fault_without_parity : Instr.wellFormed (.parityFault 0x4000 0) = false := by decide
theorem test_wellFormed_takes_the_last_words :
    Instr.wellFormed (.counterClear fromA 23 0) = true ∧ Instr.wellFormed (.activeBankWrite fromA 79682 0) = true ∧
      Instr.wellFormed (.parityFault 0x153742 0) = true := by decide

/-! ## The decoder of the host's interface: the opcode table gives its rows no bits -/

theorem test_no_word_spells_a_command : decodeTableWord 16 0 = none ∧ decodeTableWord 0 0 = none := by decide

/-! ## Results the spec works out (its worked cases) or states -/

/-- R171: over the nine bytes 0x31 to 0x39. -/
theorem test_crc16_of_nine_bytes : crc16 [0x31, 0x32, 0x33, 0x34, 0x35, 0x36, 0x37, 0x38, 0x39] = 0x29B1 := by decide +kernel

/-- R172: over the same nine bytes. -/
theorem test_crc32_of_nine_bytes :
    crc32Final ([0x31, 0x32, 0x33, 0x34, 0x35, 0x36, 0x37, 0x38, 0x39].foldl crc32Step crc32Init) = 0xFC891918 := by
  decide +kernel

/-- R144, R169: a part without a trusted bank starts in safe mode and says so on link A: unit 1, kind 8, SAFE. The reports of
the start come first on the line of the owner. -/
theorem test_start_in_safe_mode_is_reported :
    (endCheck { State.reset with phase := .checking, store := [(0x100002, ⟨0, true⟩), (0x140002, ⟨0, true⟩)] }).reports =
      [⟨.fault 0x140002, false⟩, ⟨.startup .safe, false⟩] := by decide

/-- 05: channel 21 of the split SMOOTH fade at step expiries 50 and 150, and channel 20 at 150. -/
theorem test_smooth_fade_levels :
    levelToward 51400 0 (weight .smooth (liveFraction 50 200)) = 43369 ∧
      levelToward 51400 0 (weight .smooth (liveFraction 150 200)) = 8032 ∧
      levelToward 0 65535 (weight .smooth (liveFraction 50 400)) = 2815 := by decide

/-- 06: the grand master of 204 on a merged level of 10,280, and the proportion of 128 on 26,317. -/
theorem test_scaling : scale 10280 204 = 8224 ∧ scale 26317 128 = 13210 ∧ scale 65535 128 = 32896 := by decide

/-- 07: curve 2 on 15,574 between points 10,000 and 14,000, and the falling segment of curve 5. -/
theorem test_curve_segments :
    curveBetween 10000 14000 1238 = 12417 ∧ curveBetween 30000 26000 1024 = 28000 ∧
      curveBetween 30000 26000 2047 = 26002 := by decide

/-- 07: frames 1, 2, 4 and 9 of circuit 550 (response 1,000, period 3). -/
theorem test_slew_preheat_limit :
    floorAndLimit 6000 50000 (slew 1000 3 0 40000) = 6000 ∧ floorAndLimit 6000 50000 (slew 1000 3 6000 40000) = 9000 ∧
      floorAndLimit 6000 10000 (slew 1000 3 12000 40000) = 10000 ∧ floorAndLimit 6000 65535 (slew 1000 3 7000 0) = 6000 := by
  decide

/-- 08: circuit 300 at 12,417, FINE and COARSE. -/
theorem test_line_levels : encodeLevel .fine 12417 = [0x30, 0x81] ∧ encodeLevel .coarse 12417 = [48] := by decide

/-- R145: a frame of a reply is 10 bytes with no data: 1 of sync, 3 of header, 4 of payload, 2 of CRC. -/
theorem test_reply_frame_length : (linkFrame 0x30 (replyPayload ⟨1, 7, 0x30, .ok, []⟩)).length = 10 := by decide

/-- 01: a good level frame with base 3 writes channels 3 to 6 and no other; one with base 510 is refused whole. -/
theorem test_level_frame_writes_its_channels :
    let t := afterAll ((linkFrame 0x10 [0, 3, 255, 128, 0, 64]).map (.receivedByte .a)) (receiving .hunt)
    [2, 3, 4, 5, 6, 7].map (bufferLevel t .a) = [0, 255, 128, 0, 64, 0] ∧ (linkOf t .a).counters.goodLevel = 1 := by decide +kernel
theorem test_level_frame_past_512_is_refused :
    let t := afterAll ((linkFrame 0x10 [1, 254, 255, 128, 0, 64]).map (.receivedByte .a)) (receiving .hunt)
    bufferLevel t .a 512 = 0 ∧ (linkOf t .a).counters.length = 1 ∧ (linkOf t .a).counters.goodLevel = 0 := by decide +kernel

/-- 09: the partial WRITE of source mode, preferred link, reclaim, handover time and loss time. -/
theorem test_write_clamps_settings :
    let t := after (.write fromA [3, 3, 1, 1500, 4]) busy
    t.working.sourceMode = .merge ∧ t.working.preferred = .b ∧ t.working.handoverTime = 1000 ∧ t.working.lossTime = 10 ∧
      t.tableIndex.a = 5 ∧ t.replies.a = [⟨1, 7, 0x02, .ok, [5]⟩] := by decide

/-- R136, 09: the same WRITE from the standby. -/
theorem test_write_from_the_standby :
    (after (.write fromB [3, 3, 1, 1500, 4]) busy).replies.b = [⟨1, 7, 0x02, .notOwner, [0]⟩] := by decide

/-- 08: line 4 at period 1 and FINE: a frame starts on time, the timer expires during it, the next one starts late. -/
theorem test_late_frame :
    let s := setLine (rewrite busy 27 1) 3 { Line.reset with tx := .sending, next := 256, timer := 0 }
    let s := { s with working := { s.working with lines := s.working.lines.set 3 ⟨true, 256, .fine, 1⟩ } }
    let t := afterAll [.lineStep 3, .endOfFrame 3] s
    (lineAt t 3).tx = .sending ∧ (lineAt t 3).late = 1 ∧ (lineAt t 3).timer = 0 ∧ (lineAt t 3).mode = .fine := by decide

/-- R75: a key held is recognised at the second step expiry of the fade engine after its change. -/
theorem test_key_is_pressed_at_the_second_step :
    let s := after (.keyInputChange .back true) busy
    let o : StepOrder := ⟨16, 16, 16, .goBackPause⟩
    (after (.fadeStep o) s).panel.back.pressed = false ∧
      (after (.keyPressed .back o) (after (.fadeStep o) s)).panel.back.pressed = true := by decide +kernel

/-! ## States that meet the hypotheses of the obligations -/

/-- Whether a command answers a next state. -/
def goes (i : Instr) (s : State) : Bool :=
  match exec i s with
  | .next _ => true
  | .fault _ | .refused _ => false

/-- Every claim about the links at hand holds of A and of B. -/
theorem both {P : Link → Prop} (ha : P .a) (hb : P .b) : ∀ x, P x := fun x => by cases x <;> assumption

/-- Every claim about the keys at hand holds of the three. -/
theorem three {P : Key → Prop} (h1 : P .go) (h2 : P .back) (h3 : P .pause) : ∀ k, P k := fun k => by cases k <;> assumption

/-- The regions of a bank as the structure check wants them: each base is 1. -/
def sound (b : Bank) (s : State) : State := bankWith b ((List.range 8).map fun r => (2563 + 8 * r, 1)) s

/-- Full reset with a faulted setting and a faulted last point of curve 7. -/
def hurt : State := breakParity (breakParity State.reset 0 5) (curveAddr 7 32) 9

theorem meets_StepRunsFrontCommand : ({ busy with pending := [.copyWord] }).pending = .copyWord :: [] := by decide

theorem meets_ResetReleaseRepairs :
    hurt.phase = .inReset ∧ 0 ∈ settingAddrs ∧ (stored hurt 0).bad = true ∧ selectionAddr ∈ settingAddrs ∧
      (stored hurt selectionAddr).bad = false ∧ (∃ i < 33, (stored hurt (curveAddr 7 i)).bad = true) ∧
      (∀ i < 33, (stored hurt (curveAddr 1 i)).bad = false) ∧ (∀ x, isLive hurt x = false) :=
  ⟨by decide, by decide, by decide, by decide, by decide, by decide, by decide, both (by decide) (by decide)⟩

def checking : State := { State.reset with phase := .checking }

theorem meets_PowerUpCheckDecides_normal :
    (sound .b0 checking).phase = .checking ∧ examine (sound .b0 checking) (sound .b0 checking).active = .pass ∧
      ∀ k, (lineAt (sound .b0 checking) k).tx = .silent := by decide +kernel

theorem meets_PowerUpCheckDecides_fallback :
    (sound .b1 checking).phase = .checking ∧ examine (sound .b1 checking) (sound .b1 checking).active ≠ .pass ∧
      examine (sound .b1 checking) (otherBank (sound .b1 checking).active) = .pass := by decide +kernel

theorem meets_PowerUpCheckDecides_safe :
    checking.phase = .checking ∧ examine checking checking.active ≠ .pass ∧
      examine checking (otherBank checking.active) ≠ .pass := by decide +kernel

/-- The check ends with the return lines IDLE, no reply, and room for the report; a bank may hold two cues of one stack. -/
theorem meets_PowerUpCheckDecides_report :
    checking.tx = ⟨none, none⟩ ∧ checking.replies = ⟨[], []⟩ ∧ checking.reports.length < 32 ∧ 1 ≤ 16 ∧ 3 ≤ 2626 ∧
      (lineSettings checking 0).enable = true ∧
      (lineSettings { checking with working := { checking.working with lines := Vector.replicate 4 ⟨false, 1, .coarse, 3⟩ } } 1).enable =
        false := by decide

theorem meets_ParityFaultHitsOneWord :
    (∀ a ∈ [0x000000, 0x00001B, 0x002000, 0x0020F4, 0x002100, 0x003021, 0x003107, 0x100000, 0x113742, 0x140000, 0x153742],
      retained a = true) ∧
    ∀ a ∈ [0x00001C, 0x001000, 0x002005, 0x002101, 0x003020, 0x003108, 0x004000, 0x113743, 0xFFFFFF], retained a = false := by
  decide

/-- The fault list with n entries. -/
def listing (n : Nat) (s : State) : State := { s with faultList := List.range n }

/-- An address offered that is listed, the sixteenth one, and one that finds the list full. -/
theorem meets_ParityFaultHitsOneWord_offers :
    14 ∈ (listing 15 busy).faultList ∧ 15 ∉ (listing 15 busy).faultList ∧ (listing 15 busy).faultList.length < 16 ∧
      16 ∉ (listing 16 busy).faultList ∧ 16 ≤ (listing 16 busy).faultList.length := by decide

def copying : State := { busy with slot := .copy 0x140000 0x140020 5 0 }
def verifying : State := { busy with slot := .verify .b1 (.crc 2 0xFFFFFFFF) false 0 }

theorem meets_RestartClears :
    takenFromOwner busy fromA ∧ busy.safeMode = false ∧ busy.slot = .empty ∧ boundStack busy 0 ≠ none ∧
      takenFromOwner copying fromA ∧ copying.slot = .copy 0x140000 0x140020 5 0 ∧
      copying.tx.get copying.arb.owner ≠ none ∧ takenFromOwner verifying fromA ∧
      verifying.slot = .verify .b1 (.crc 2 0xFFFFFFFF) false 0 := by decide

/-! ### Console links -/

/-- A reception state one byte short of a frame's end, and the byte that ends it. -/
def lastByteOf (typ : Byte) (payload : List Byte) : Reception :=
  .body typ payload.length payload (some (byteOf ((crc16 (typ :: wordBytes (wordOf payload.length) ++ payload)).toNat / 256)))

def lowCrc (typ : Byte) (payload : List Byte) : Byte := byteOf (crc16 (typ :: wordBytes (wordOf payload.length) ++ payload)).toNat

theorem meets_ByteIsTaken :
    (receiving .hunt).phase ≠ .inReset ∧ (receiving .hunt).followStuck = false ∧
      (linkOf (receiving .hunt) .a).rx = .hunt ∧ (linkOf (receiving .drain) .a).rx = .drain ∧
      (linkOf (receiving (.header [])) .a).rx = .header [] ∧ (linkOf (receiving (.header [0x10])) .a).rx = .header [0x10] ∧
      (linkOf (receiving (.header [0x10, 2])) .a).rx = .header [0x10, 2] ∧
      (2 : Byte).toNat * 256 + (8 : Byte).toNat ≤ 520 ∧ 520 < (2 : Byte).toNat * 256 + (9 : Byte).toNat ∧
      (linkOf (receiving (.body 0x10 1 [] none)) .a).rx = .body 0x10 1 [] none ∧ ([] : List Byte).length < 1 ∧
      (linkOf (receiving (.body 0x10 0 [] none)) .a).rx = .body 0x10 0 [] none ∧ 0 ≤ ([] : List Byte).length := by decide

theorem meets_IdleTimeEndsFrameOrDrain :
    (linkOf (receiving (.header [])) .a).rx = .header [] ∧
      (linkOf (receiving (.body 0x10 1 [] none)) .a).rx = .body 0x10 1 [] none ∧
      (linkOf (receiving .drain) .a).rx = .drain ∧ (linkOf (receiving .hunt) .a).rx = .hunt := by decide

/-- A state about to take the last byte of a frame on link A. -/
def ending (typ : Byte) (payload : List Byte) : State := receiving (lastByteOf typ payload)

theorem meets_BadFrameIsDiscarded :
    (ending 0x10 [0, 1, 9]).phase ≠ .inReset ∧ (ending 0x10 [0, 1, 9]).followStuck = false ∧
      (linkOf (ending 0x10 [0, 1, 9]) .a).rx = lastByteOf 0x10 [0, 1, 9] ∧
      (∀ f ∈ [((0x10 : Byte), ([0, 1] : List Byte)), (0x10, [0, 0, 9]), (0x10, [2, 1, 9]), (0x20, [1, 7]), (0x21, [])],
        ∃ hi, lastByteOf f.1 f.2 = .body f.1 f.2.length f.2 (some hi) ∧
          crc16 (f.1 :: wordBytes (wordOf f.2.length) ++ f.2) = wordOfBytes hi (lowCrc f.1 f.2) ∧
          crc16 (f.1 :: wordBytes (wordOf f.2.length) ++ f.2) ≠ wordOfBytes hi (lowCrc f.1 f.2 + 1)) ∧
      wordOfBytes 0 0 = 0 ∧ 513 < (wordOfBytes 2 1).toNat + ([9] : List Byte).length := by
  refine ⟨by decide, by decide, rfl, ?_, by decide, by decide⟩
  simp only [List.mem_cons, List.not_mem_nil, or_false]
  rintro f (rfl | rfl | rfl | rfl | rfl) <;> exact ⟨_, rfl, by decide +kernel, by decide +kernel⟩

theorem meets_LevelFrameIsAccepted :
    (ending 0x10 [0, 1, 9]).phase ≠ .inReset ∧ (ending 0x10 [0, 1, 9]).followStuck = false ∧
      (∀ p ∈ [([0, 1, 9] : List Byte), [2, 0, 9]], ∃ hi, lastByteOf 0x10 p = .body 0x10 (1 + 2) p (some hi) ∧
        crc16 (0x10 :: wordBytes (wordOf (1 + 2)) ++ p) = wordOfBytes hi (lowCrc 0x10 p)) ∧
      1 ≤ (wordOfBytes 0 1).toNat ∧ (wordOfBytes 2 0).toNat + 1 ≤ 513 ∧
      ∀ l ∈ [LinkRx.reset, { liveRx with state := .acquiring, acq := 1 }, { liveRx with state := .acquiring, acq := 2 }, liveRx],
        let s := setLink busy .a { l with rx := lastByteOf 0x10 [0, 1, 9] }
        (linkOf s .a).rx = lastByteOf 0x10 [0, 1, 9] ∧ (linkOf s .a).state = l.state ∧ (linkOf s .a).acq = l.acq := by
  refine ⟨by decide, by decide, ?_, by decide, by decide, ?_⟩
  · simp only [List.mem_cons, List.not_mem_nil, or_false]
    rintro p (rfl | rfl) <;> exact ⟨_, rfl, by decide +kernel⟩
  · simp only [List.mem_cons, List.not_mem_nil, or_false]
    rintro l (rfl | rfl | rfl | rfl) <;> exact ⟨rfl, rfl, rfl⟩

/-- About to take the last byte of the frame that makes a link LIVE, the level of channel 1. -/
def comingUp (x : Link) (s : State) : State :=
  setLink s x { liveRx with state := .acquiring, acq := 2, rx := lastByteOf 0x10 [0, 1, 9] }

/-- The frame makes the link LIVE in each of the ways the arbiter acts: the owner returns from HOLD, the preferred link
reclaims, MERGE makes a trigger, and a standby does nothing. -/
theorem meets_LevelFrameIsAccepted_live :
    (∀ x, busy.tx.get x ≠ none) ∧ busy.reports.length + 2 ≤ 32 ∧
      (∀ x, (linkOf (comingUp x busy) x).state = .acquiring ∧ 2 ≤ (linkOf (comingUp x busy) x).acq ∧
        (linkOf (comingUp x busy) x).rx = lastByteOf 0x10 [0, 1, 9]) ∧
      (let s := comingUp .a { busy with arb := { busy.arb with source := .hold } }
       s.working.sourceMode ≠ .sole ∧ s.arb.source = .hold ∧ s.arb.owner = .a) ∧
      (let s := comingUp .a { busy with arb := { busy.arb with owner := .b }, working := { busy.working with reclaim := true } }
       s.arb.source = .normal ∧ (linkOf s s.arb.owner).state = .live ∧ s.working.reclaim = true ∧
        s.working.sourceMode ≠ .sole ∧ s.working.preferred = .a ∧ s.arb.owner ≠ .a ∧ s.arb.lock = false) ∧
      (comingUp .b busy).arb.source = .normal ∧ (comingUp .b busy).working.preferred ≠ .b ∧
      (linkOf (comingUp .b busy) (comingUp .b busy).arb.owner).state = .live ∧
      (comingUp .b busy).working.sourceMode ≠ .merge :=
  ⟨both (by decide) (by decide), by decide, both ⟨by decide, by decide, rfl⟩ ⟨by decide, by decide, rfl⟩, by decide, by decide,
    by decide, by decide, by decide, by decide⟩

theorem meets_RequestFrameIsFilteredAndRuns :
    (∀ u ∈ [(1 : Byte), 0, 9], ∃ hi, (linkOf (ending 0x20 [u, 7, 0x30, 1]) .a).rx =
        .body 0x20 (([1] : List Byte).length + 3) [u, 7, 0x30, 1] (some hi) ∧
      crc16 (0x20 :: wordBytes (wordOf (([1] : List Byte).length + 3)) ++ [u, 7, 0x30, 1]) =
        wordOfBytes hi (lowCrc 0x20 [u, 7, 0x30, 1])) ∧
      (ending 0x20 [1, 7, 0x30, 1]).phase = .running ∧ (ending 0x20 [1, 7, 0x30, 1]).followStuck = false ∧
      (1 : Byte).toNat = (ending 0x20 [1, 7, 0x30, 1]).working.unit ∧
      (9 : Byte).toNat ≠ (ending 0x20 [9, 7, 0x30, 1]).working.unit ∧ parseRequest 0x30 [1] = some (.go 1) ∧
      parseRequest 0x77 [] = none ∧ parseRequest 0x11 [1] = none ∧ parseRequest 0x02 [1] = none ∧
      (busy.replies.get .a).length < 4 := by
  refine ⟨?_, by decide, by decide, by decide, by decide, by decide, by decide, by decide, by decide, by decide⟩
  simp only [List.mem_cons, List.not_mem_nil, or_false]
  rintro u (rfl | rfl | rfl) <;> exact ⟨_, rfl, by decide +kernel⟩

def inMode (m : SourceMode) (s : State) : State := { s with working := { s.working with sourceMode := m } }

/-- Link A with its loss timer at a count. -/
def timed (n : Nat) (s : State) : State := setLink s .a { liveRx with timer := some n }

theorem meets_LossTimerCountsAndExpires :
    (linkOf (setLink busy .a LinkRx.reset) .a).timer = none ∧
      (linkOf (timed 98 busy) .a).timer = some 98 ∧ 98 + 1 < (timed 98 busy).working.lossTime ∧
      (linkOf (timed 99 busy) .a).timer = some 99 ∧ (timed 99 busy).working.lossTime ≤ 99 + 1 ∧
      (timed 99 busy).phase ≠ .inReset ∧ (timed 99 busy).arb.owner = .a ∧ (timed 99 busy).working.handoverTime ≠ 0 ∧
      (timed 99 busy).working.sourceMode ≠ .sole ∧ (linkOf (timed 99 busy) (otherLink .a)).state = .live ∧
      (linkOf (timed 99 (setLink busy .b LinkRx.reset)) (otherLink .a)).state ≠ .live ∧
      busy.reports.length + 2 ≤ 32 ∧ ({ timed 99 busy with phase := .inReset }).phase = .inReset ∧
      (let s := inMode .merge { timed 99 busy with arb := { busy.arb with owner := .b } }
       s.arb.owner ≠ .a ∧ s.working.sourceMode = .merge ∧ (linkOf s (otherLink .a)).state = .live) ∧
      (let s := inMode .merge { timed 99 (setLink busy .b LinkRx.reset) with arb := { busy.arb with owner := .b, source := .dark } }
       s.arb.source = .dark ∧ (linkOf s (otherLink .a)).state ≠ .live) := by decide

/-! ### The arbiter -/

/-- A console-source state with its elapsed count. -/
def sourceAt (src : SourceState) (n : Nat) (s : State) : State := { s with arb := { s.arb with source := src, elapsed := n } }

/-- A state in which the hold and the loss fade have ends. -/
def fadeable : State := { busy with working := { busy.working with lossFadeDelay := 5 } }

theorem meets_ArbiterStepCounts :
    (sourceAt .normal 0 busy).phase ≠ .inReset ∧ (sourceAt .normal 0 busy).arb.source = .normal ∧
      (sourceAt .handover 98 busy).arb.source = .handover ∧
      ¬ (sourceAt .handover 98 busy).working.handoverTime ≤ min 65535 (98 + 1) ∧
      (sourceAt .handover 99 busy).working.handoverTime ≤ min 65535 (99 + 1) ∧
      (sourceAt .hold 65535 busy).working.lossFadeDelay = 0 ∧ (sourceAt .hold 4 fadeable).arb.source = .hold ∧
      (sourceAt .hold 4 fadeable).working.lossFadeDelay ≠ 0 ∧ (sourceAt .hold 4 fadeable).working.lossFadeDelay ≤ min 65535 (4 + 1) ∧
      (sourceAt .lossFade 498 busy).arb.source = .lossFade ∧ ¬ (sourceAt .lossFade 498 busy).working.lossFadeTime ≤ min 65535 (498 + 1) ∧
      (sourceAt .lossFade 499 busy).working.lossFadeTime ≤ min 65535 (499 + 1) := by decide

def arbWith (lock holdoff : Bool) : State := { busy with arb := { busy.arb with lock := lock, holdoff := holdoff } }

theorem meets_TakeIsDecided :
    taken busy fromB ∧ taken busy fromA ∧ (inMode .sole busy).working.sourceMode = .sole ∧ busy.working.sourceMode ≠ .sole ∧
      busy.arb.owner = fromA.link ∧ busy.arb.owner ≠ fromB.link ∧ (arbWith true true).arb.lock = true ∧
      (arbWith false true).arb.lock = false ∧ (arbWith false true).arb.holdoff = true ∧
      (linkOf (setLink busy .b LinkRx.reset) fromB.link).state ≠ .live ∧ (linkOf busy fromB.link).state = .live ∧
      busy.arb.lock = false ∧ busy.arb.holdoff = false ∧ busy.working.handoverTime ≠ 0 ∧ busy.reports.length < 32 ∧
      (∀ x, busy.tx.get x ≠ none) :=
  ⟨by decide, by decide, by decide, by decide, by decide, by decide, by decide, by decide, by decide, by decide, by decide,
    by decide, by decide, by decide, by decide, both (by decide) (by decide)⟩

/-- A TAKE by a link whose return line is IDLE, with as many reports waiting as the queue holds. -/
theorem meets_TakeIsDecided_idle :
    let s := { quiet with tx := ⟨some [0xE7], none⟩, reports := List.replicate 32 ⟨.linkLive .b, false⟩ }
    taken s fromB ∧ s.arb.lock = false ∧ s.arb.holdoff = false ∧ (linkOf s .b).state = .live ∧ s.arb.owner ≠ fromB.link ∧
      s.tx.get fromB.link = none ∧ s.replies.get fromB.link = [] ∧ s.reports.length ≤ 32 ∧
      s.reports ++ [⟨.handover s.arb.owner .b .take, s.dropMark⟩] =
        ⟨.linkLive .b, false⟩ :: (List.replicate 31 ⟨.linkLive .b, false⟩ ++ [⟨.handover .a .b .take, false⟩]) := by decide

theorem meets_LockAndUnlock :
    takenFromOwner busy fromA ∧ (linkOf busy busy.arb.owner).state = .live ∧
      takenFromOwner (setLink busy .a LinkRx.reset) fromA ∧ (linkOf (setLink busy .a LinkRx.reset) .a).state ≠ .live := by decide

theorem meets_SourceChangesDoNotJump :
    (timed 99 busy).phase ≠ .inReset ∧ (timed 99 busy).working.handoverTime ≠ 0 ∧
      (∀ i ∈ [Instr.take fromB, .lossTimerStep .a, .lossTimerExpiry .a, .sourceModeWrite fromA 0, .preferredLinkWrite fromA 1],
        goes i (timed 99 busy) = true) ∧
      (let s := { timed 99 busy with tableIndex := ⟨0, 0⟩ }
       let t := after (.write fromA [1, 1, 0]) s
       goes (.write fromA [1, 1, 0]) s = true ∧ t.working.handoverTime ≠ 0 ∧
        t.working.lossFadeTime = s.working.lossFadeTime ∧ t.working.handoverTime = s.working.handoverTime ∧
        t.arb.owner ≠ s.arb.owner) := by decide +kernel

/-- Link A, the owner, about to come up while the console is held and link B is DOWN. -/
def held : State := comingUp .a (setLink (sourceAt .hold 5 busy) .b LinkRx.reset)

/-- The state is one that ConsoleInv allows, and the frame makes the link LIVE. -/
theorem meets_SourceChangesDoNotJump_live :
    ConsoleInv held ∧ held.working.handoverTime ≠ 0 ∧ (linkOf held .a).state = .acquiring ∧
      goes (.receivedByte .a (lowCrc 0x10 [0, 1, 9])) held = true ∧
      (linkOf (after (.receivedByte .a (lowCrc 0x10 [0, 1, 9])) held) .a).state = .live :=
  ⟨⟨both (by decide) (by decide), by decide, by decide, by decide, by decide, by decide, by decide, by decide⟩,
    by decide, by decide, by decide +kernel, by decide +kernel⟩

/-! ### Requests and the table space -/

def replyThere : Reply := ⟨1, 6, 0x30, .ok, []⟩
def fullReplies : State := { busy with replies := ⟨List.replicate 4 replyThere, List.replicate 4 replyThere⟩ }

theorem meets_RequestsAreCheckedInOrder :
    fullReplies.phase = .running ∧ fullReplies.followStuck = false ∧ fromA.unit ≠ 0 ∧
      4 ≤ (fullReplies.replies.get fromA.link).length ∧ taken busy fromA ∧ (Request.go 0).inRange = false ∧
      (Request.go 17).inRange = false ∧ (Request.write []).inRange = false ∧ (Request.read 251).inRange = false ∧
      (Request.switch 2).inRange = false ∧ taken busy fromB ∧ busy.arb.owner ≠ fromB.link ∧
      (Request.write [0]).inRange = true ∧ (Request.write [0]).ownerOnly = true ∧ Request.apply.inRange = true ∧
      Request.apply.ownerOnly = true ∧ (Request.read 250).inRange = true ∧ (Request.read 250).ownerOnly = false ∧
      busy.arb.owner = fromA.link ∧ (answer busy .a .hold).state.followStuck = false := by decide

theorem meets_ReturnLinesSendFrames :
    quiet.phase = .running ∧ quiet.tx.get .a = none ∧ quiet.replies.get .a = [] ∧ busy.phase = .running ∧
      busy.tx.get .a ≠ none ∧ fullReplies.replies.get .a = replyThere :: List.replicate 3 replyThere ∧
      ({ quiet with reports := [⟨.linkLive .b, false⟩] }).reports = ⟨.linkLive .b, false⟩ :: [] ∧
      quiet.arb.owner = .a ∧ quiet.reports = [] ∧ fromA.unit ≠ 0 ∧ (⟨.a, 0, 7⟩ : Req).unit = 0 := by decide

/-- A report offered to a queue with its last place free, to a full one, before the end of the power-up check, and to an IDLE
line of the owner. -/
theorem meets_ReturnLinesSendFrames_offers :
    let full (n : Nat) (s : State) : State := { s with reports := List.replicate n ⟨.linkLive .b, false⟩ }
    busy.tx.get busy.arb.owner ≠ none ∧ (full 31 busy).reports.length < 32 ∧ 32 ≤ (full 32 busy).reports.length ∧
      ({ quiet with phase := .checking }).phase ≠ .running ∧ quiet.phase = .running ∧ quiet.tx.get quiet.arb.owner = none ∧
      quiet.replies.get quiet.arb.owner = [] ∧ (full 1 quiet).reports.length < 32 ∧
      (full 1 quiet).reports ++ [⟨.linkDown .b, quiet.dropMark⟩] = ⟨.linkLive .b, false⟩ :: [⟨.linkDown .b, false⟩] ∧
      ([1, 1, 1, 0] : List Byte).length < 65536 := by decide

/-- The two links' indices at an address. -/
def indexAt (a : Nat) (s : State) : State := { s with tableIndex := ⟨a, a⟩ }

theorem meets_IndexAndRead :
    taken busy fromB ∧ 1 ≤ (1 : Word).toNat ∧ (250 : Word).toNat ≤ 250 ∧
      (∀ a ∈ [0, 0x1B, 0x1C, 0xFFFFFF], (indexAt a busy).tableIndex.get fromB.link < 0x1000000) ∧
      readTable busy 0x1B = .value 3 ∧ readTable busy 0x1C = .unmapped ∧
      readTable (breakParity busy 0x1B 3) 0x1B = .fault 0x1B := by decide

/-- Each condition under which an area reads as it does, at the ends of its range. -/
theorem meets_IndexAndRead_areas :
    readWord busy 0x100002 = some 0 ∧ readWord (breakParity busy 0x100002 0) 0x100002 = none ∧ busy.safeMode = false ∧
      ({ busy with safeMode := true }).safeMode = true ∧ Bank.b1 ≠ busy.active ∧ 79682 < 79683 ∧ 2 < 3 ∧ 2626 < 2627 ∧
      copying.slot = .copy 0x140000 0x140020 5 0 ∧ verifying.slot = .verify .b1 (.crc 2 0xFFFFFFFF) false 0 ∧
      busy.slot = .empty ∧ (0 : Nat) < 0x1000000 ∧ readTable (breakParity busy 0x100003 1) 0x100003 = .value 0 ∧
      readTable (breakParity busy 0x100003 1) 0x4000 = .fault 0x100003 := by decide

theorem meets_WriteCountsWordsTaken :
    takenFromOwner busy fromA ∧ 1 ≤ ([0] : List Word).length ∧ (List.replicate 250 (0 : Word)).length ≤ 250 ∧
      (∀ a ∈ [0, 0x1B, 0x3021, 0x140000, 0xFFFFFF], (indexAt a busy).tableIndex.get fromA.link < 0x1000000) := by
  exact ⟨by decide, by decide, (List.length_replicate).le, by decide⟩

theorem meets_SettingIsWritten :
    takenFromOwner busy fromA ∧ (∀ i ∈ [2, 3, 4, 5, 7, 8, 9, 10, 11, 13, 14, 15, 27], 2 ≤ i ∧ i < 28 ∧ (i < 12 ∨ i % 4 ≠ 0)) ∧
      (indexAt 27 busy).tableIndex.get fromA.link = 27 ∧ 1 ≤ (1 : Word).toNat ∧ (15 : Word).toNat ≤ 15 ∧
      ¬ (1 ≤ (0 : Word).toNat) ∧ ¬ ((16 : Word).toNat ≤ 15) ∧
      (∀ a ∈ [0x2001, 0x20F4, 0x3021, 0x3107, 0x1000, 0x1018, 0x1049, 0x2005, 0x20FF, 0x2100, 0x3000, 0x3020, 0x4000, 0x4A3F,
        0x1C, 0xFFF, 0x104A, 0x1FFF, 0x2101, 0x2FFF, 0x3108, 0x3FFF, 0x4A40, 0xFFFFF, 0x113743, 0x13FFFF, 0x153743, 0xFFFFFF],
        (indexAt a busy).tableIndex.get fromA.link = a) := by decide

theorem meets_SourceModeIsWritten :
    takenFromOwner busy fromA ∧ 4 ≤ (4 : Word).toNat ∧ (3 : Word).toNat < 4 ∧ sourceModeOf 2 = busy.working.sourceMode ∧
      sourceModeOf 3 ≠ busy.working.sourceMode ∧ (linkOf busy .a).state = .live ∧
      (let s := setLink (setLink busy .a LinkRx.reset) .b LinkRx.reset
       (linkOf s .a).state ≠ .live ∧ (linkOf s .b).state ≠ .live ∧ s.arb.source = .normal) ∧
      (sourceAt .dark 0 busy).arb.source = .dark := by decide

/-- A write of the source mode that changes the owner: SOLE under a preferred link B, and a LIVE standby of a DOWN owner. -/
theorem meets_SourceModeIsWritten_reports :
    (∀ y, busy.tx.get y ≠ none) ∧ busy.reports.length < 32 ∧
      (let s := { busy with working := { busy.working with preferred := .b } }
       takenFromOwner s fromA ∧ (after (.sourceModeWrite fromA 1) s).arb.owner ≠ s.arb.owner) ∧
      (let s := setLink busy .a LinkRx.reset
       takenFromOwner s fromA ∧ (after (.sourceModeWrite fromA 3) s).arb.owner ≠ s.arb.owner) :=
  ⟨both (by decide) (by decide), by decide, by decide, by decide⟩

theorem meets_PreferredLinkIsWritten :
    takenFromOwner busy fromA ∧ busy.working.sourceMode ≠ .sole ∧ takenFromOwner (inMode .sole busy) fromA ∧
      (inMode .sole busy).working.sourceMode = .sole ∧ (inMode .sole busy).arb.owner ≠ .b ∧
      (linkOf (inMode .sole busy) .b).state = .live ∧ (inMode .sole busy).working.handoverTime ≠ 0 ∧
      (linkOf (setLink (inMode .sole busy) .b LinkRx.reset) .b).state ≠ .live ∧ (inMode .sole busy).arb.source = .normal ∧
      (sourceAt .hold 3 (inMode .sole busy)).arb.source = .hold ∧ (inMode .sole busy).tx.get .a ≠ none ∧
      (inMode .sole busy).tx.get .b ≠ none ∧ (inMode .sole busy).reports.length < 32 := by decide

theorem meets_BoundStackIsWritten :
    takenFromOwner busy fromA ∧ 16 < (17 : Word).toNat ∧ ¬ 16 < (16 : Word).toNat ∧
      (playbackAt (setPlayback busy 15 { Playback.reset with state := .atCue }) 15).state = .atCue ∧
      ({ busy with safeMode := true }).safeMode = true ∧ (playbackAt busy 0).state = .unbound := by decide

/-- Line 2 in a transmit state. -/
def lineIn (tx : LineTx) : State := setLine busy 1 { Line.reset with tx := tx }

theorem meets_LineEnableIsWritten :
    ∀ tx ∈ [LineTx.silent, .waiting, .sending, .startPending, .stopping],
      takenFromOwner (lineIn tx) fromA ∧ (lineAt (lineIn tx) 1).tx = tx := by decide

theorem meets_CounterIsCleared : takenFromOwner busy fromA ∧ 2 ≤ 2 ∧ 23 ≤ 23 ∧ 1 < 2 ∧ 23 < 24 := by decide

/-- Bank 0 with region 1 over circuits 1 to 3 under the given flags, and region 2 over none. -/
def regioned (flags : Nat) : State :=
  bankWith .b0 [(2563, 1), (2564, 3), (2565, flags), (2566, 40000), (2568, 100), (2569, 65000), (2570, 10)] busy

theorem meets_ActiveBankWordIsDecided :
    takenFromOwner (regioned 16) fromA ∧ (regioned 16).safeMode = false ∧ 79682 < 79683 ∧
      protectedCircuit (regioned 16) 3 = .ok true ∧ protectedCircuit (regioned 0) 3 = .ok false ∧
      protectedCircuit (breakParity (regioned 16) 0x100A04 3) 1 = .error 0x100A04 ∧
      tableCheck (shadowWord (regioned 0)) 3 4 = none ∧ tableCheck (shadowWord (regioned 0)) 2626 9 = some [(2626, 9)] ∧
      (regioned 0).patchHold = false ∧ ({ regioned 0 with patchHold := true }).patchHold = true := by decide

theorem meets_TableWordIsChecked :
    1 ≤ 512 ∧ 1 ≤ 1024 ∧ 1 ≤ 8 ∧ tableCheck (fun _ => 5) 514 3 = some [(514, 3)] ∧
      tableCheck (fun _ => 5) 2562 256 = none ∧ tableCheck (fun _ => 5) 2619 1024 = some [(2619, 1024), (2620, 1)] ∧
      ((fun _ => 1025 : Nat → Word) 2619).toNat ≤ 1025 ∧ 1025 < ((fun _ => 1026 : Nat → Word) 2619).toNat ∧
      tableCheck (fun _ => 1025) 2620 7 = some [(2620, 0)] := by decide

theorem meets_StagedBankWordIsTaken :
    takenFromOwner copying fromA ∧ Bank.b1 ≠ copying.active ∧ copying.slot = .copy 0x140000 0x140020 5 0 ∧
      0x140020 ≤ bankBase .b1 + 36 ∧ bankBase .b1 + 36 < 0x140020 + 5 ∧ 0x140020 + 5 ≤ bankBase .b1 + 37 ∧
      bankBase .b1 + 31 < 0x140020 ∧ takenFromOwner verifying fromA ∧ 36 < 79683 ∧ verifying.slot ≠ .empty ∧
      (let s := { verifying with safeMode := true }
       takenFromOwner s fromA ∧ s.safeMode = true ∧ s.slot = .verify .b1 (.crc 2 0xFFFFFFFF) false 0) := by decide

/-! ### Show banks -/

def safe : State := { busy with safeMode := true }

theorem meets_PatchHoldRequests :
    takenFromOwner busy fromA ∧ busy.safeMode = false ∧ takenFromOwner safe fromA ∧ safe.safeMode = true := by decide

theorem meets_CopyIsDecided :
    takenFromOwner busy fromA ∧ 1 ≤ (1 : Addr).toNat ∧ (65536 : Addr).toNat ≤ 65536 ∧ 0x1000000 < 0xFFFFFF + 2 ∧
      (0 ≤ 4 ∧ 4 < 0 + 5 ∧ 4 ≤ 4 ∧ 4 < 4 + 5) ∧ mapped 0x1C = false ∧ mapped 0x1B = true ∧ mapped 0x1000 = true ∧
      (bankBase busy.active ≤ 0x113742 ∧ 0x113742 < bankBase busy.active + 79683) ∧
      ¬ (bankBase .b0 ≤ 0x1000 ∧ 0x1000 < bankBase .b0 + 79683) ∧ copying.slot ≠ .empty ∧ busy.slot = .empty ∧
      (bankBase .b1 ≤ 0x153742 ∧ 0x153742 < bankBase .b1 + 79683) := by decide

theorem meets_CopyWordCopies :
    copying.slot = .copy 0x140000 0x140020 5 0 ∧ readTable copying (0x140000 + 0) = .value 0 ∧ 0 + 1 < 5 ∧
      readTable copying (0x140000 + 4) = .value 0 ∧ 5 ≤ 4 + 1 ∧
      readTable (breakParity copying 0x140000 3) (0x140000 + 0) = .fault 0x140000 ∧
      ∀ src dst n done, busy.slot ≠ .copy src dst n done :=
  ⟨by decide, by decide, by decide, by decide, by decide, by decide, fun _ _ _ _ => by simp [busy, quiet, State.reset]⟩

theorem meets_VerifyIsDecided :
    takenFromOwner busy fromA ∧ bankOf 0 = some .b0 ∧ bankOf 1 = some .b1 ∧ (busy.safeMode = false ∧ .b0 = busy.active) ∧
      takenFromOwner copying fromA ∧ copying.slot ≠ .empty ∧ busy.slot = .empty ∧ Bank.b1 ≠ busy.active := by decide

/-- A VERIFY of bank 1 in a pass. -/
def verifyIn (pass : VerifyPass) (stale : Bool) : State := { busy with slot := .verify .b1 pass stale 9 }

theorem meets_VerifyWordReads :
    (verifyIn (.crc 79682 0) false).slot = .verify .b1 (.crc 79682 0) false 9 ∧
      readWord (verifyIn (.crc 79682 0) false) (bankBase .b1 + 79682) = some 0 ∧
      readWord (breakParity (verifyIn (.crc 79682 0) true) 0x153742 7) (bankBase .b1 + 79682) = none ∧
      readWord (verifyIn (.declared 0 none) false) (bankBase .b1) = some 0 ∧
      readWord (breakParity (verifyIn (.declared 0 none) false) 0x140000 7) (bankBase .b1) = none ∧
      readWord (breakParity (verifyIn (.declared 0 (some 0)) true) 0x140001 7) (bankBase .b1 + 1) = none ∧
      readWord (verifyIn (.declared 0 (some 0)) false) (bankBase .b1 + 1) = some 0 ∧ (0 : Word) ++ (0 : Word) = (0 : BitVec 32) ∧
      (0 : Word) ++ (0 : Word) ≠ (1 : BitVec 32) := by decide

theorem meets_VerifyAgreesWithPowerUpCheck :
    (sound .b1 (verifyIn (.tables 0 .cueCount []) false)).slot = .verify .b1 (.tables 0 .cueCount []) false 9 ∧
      examine (sound .b1 (verifyIn (.tables 0 .cueCount []) false)) .b1 = .pass ∧
      examine (verifyIn (.tables 0 .cueCount []) false) .b1 = .fail ∧
      examine (breakParity (verifyIn (.tables 0 .cueCount []) false) 0x140002 0) .b1 = .fault 2 := by decide +kernel

/-- R160: a stale VERIFY in its structure pass, about to read the cue count of a sound bank; and one about to read its last
word, which ends with STALE. -/
theorem meets_VerifyAgreesWithPowerUpCheck_stale :
    (sound .b1 (verifyIn (.tables 0 .cueCount []) true)).slot = .verify .b1 (.tables 0 .cueCount []) true 9 ∧
      (let s := sound .b1 (verifyIn (.tables 0 (.region 8) [1, 0, 0, 0, 0, 0, 0]) true)
       s.slot = .verify .b1 (.tables 0 (.region 8) [1, 0, 0, 0, 0, 0, 0]) true 9 ∧
        (after .verifyWord s).slot = .empty ∧ (after .verifyWord s).lastVerify = .stale) := by decide +kernel

/-- The words read of a bank without a cue stand without a fault, and the base of region 1 in an empty bank fails. -/
theorem meets_VerifyAgreesWithPowerUpCheck_words :
    (stored (sound .b1 busy) (bankBase .b1 + 2)).val.toNat = 0 ∧
      (∀ off < 2627, (stored (sound .b1 busy) (bankBase .b1 + off)).bad = false) ∧
      (stored busy (bankBase .b1 + 2563)).val.toNat = 0 := by decide +kernel

def switchable : State := { busy with verified := ⟨false, true⟩ }

theorem meets_SwitchIsDecided :
    takenFromOwner switchable fromA ∧ bankOf 1 = some .b1 ∧ ¬ (switchable.safeMode = false ∧ .b1 = switchable.active) ∧
      switchable.slot = .empty ∧ switchable.verified.get .b1 = true ∧ busy.verified.get .b1 = false ∧ copying.slot ≠ .empty ∧
      (∀ p, (playbackAt switchable p).state = .unbound) ∧
      (playbackAt (setPlayback switchable 15 { Playback.reset with state := .atCue }) 15).state = .atCue ∧
      (let s := { switchable with patchHold := true, shadow := [(2626, 1)] }
       s.safeMode = false ∧ s.patchHold = true ∧ 3 ≤ 2626 ∧ 2626 < 2627 ∧ (liveStored s 2626).val ≠ shadowWord s 2626) ∧
      switchable.reports.length < 32 ∧ readWord switchable (bankBase .b1 + 2) = some 0 ∧
      (∀ p < (0 : Word).toNat, (stored switchable (bankBase .b1 + 2627 + 12 * p)).bad = false) := by
  decide

/-- Bank 1 with two cues of stack 2: cue 2.0 at position 0 and cue 1.0 at position 1, each with one look entry. -/
def twoCues (b : Bank) (s : State) : State :=
  bankWith b
    [(2, 2), (2627, 2), (2628, 20), (2630, 1), (2631, 100), (2633, 100), (2635, 8), (2639, 2), (2640, 10), (2642, 1),
     (2643, 50), (2645, 50), (2647, 16), (2648, 30), (14147, 1), (14148, 255)] s

theorem meets_SwitchBuildsStackIndex :
    let s := twoCues .b1 switchable
    takenFromOwner s fromA ∧ bankOf 1 = some .b1 ∧ Bank.b1 ≠ s.active ∧ s.slot = .empty ∧ s.verified.get .b1 = true ∧
      (∀ p, (playbackAt s p).state = .unbound) ∧ readWord s (bankBase .b1 + 2) = some 2 ∧
      (∀ p < (2 : Word).toNat, ∀ q < (2 : Word).toNat,
        (stored s (bankBase .b1 + 2627 + 12 * p + 1)).val = (stored s (bankBase .b1 + 2627 + 12 * q + 1)).val → p = q) ∧
      goes (.switch fromA 1) s = true := by decide +kernel

/-- A faulted cue number word leaves its record out of the list, and a faulted cue count leaves no list. -/
theorem meets_SwitchBuildsStackIndex_faults :
    (let s := breakParity (twoCues .b1 switchable) (bankBase .b1 + 2628) 20
     let t := after (.switch fromA 1) s
     (stored s (bankBase .b1 + 2627 + 12 * 0 + 1)).bad = true ∧ goes (.switch fromA 1) s = true ∧
      stackList t 2 = [⟨10, 1⟩] ∧ t.faultList = [bankBase .b1 + 2628]) ∧
    (let s := breakParity (twoCues .b1 switchable) (bankBase .b1 + 2) 2
     readWord s (bankBase .b1 + 2) = none ∧ goes (.switch fromA 1) s = true) := by decide +kernel

/-! ### Output lines and composition -/

theorem meets_LineStepCounts :
    (∀ tx ∈ [LineTx.silent, .startPending, .stopping, .waiting, .sending], (lineAt (lineIn tx) 1).tx = tx) ∧
      (lineAt (setLine busy 1 { Line.reset with tx := .waiting, timer := 1 }) 1).timer + 1 < (lineSettings busy 1).period ∧
      (lineSettings busy 1).period ≤ (lineAt (setLine busy 1 { Line.reset with tx := .sending, timer := 2 }) 1).timer + 1 := by
  decide

/-- Line 1 sending its first circuit. -/
def composing (s : State) : State := setLine s 0 { Line.reset with tx := .sending, sent := [0xE7, 0x50, 0] }

theorem meets_CircuitIsComposedAndSent :
    (lineAt (composing (regioned 8)) 0).tx = .sending ∧ (lineAt (composing (regioned 8)) 0).next < (lineAt (composing (regioned 8)) 0).count ∧
      (∃ u, compose (composing (regioned 8)) 1 3 = .ok u ∧ u.level ≤ 65535) ∧
      (∃ a, compose (composing (breakParity (regioned 8) 0x100A04 3)) 1 3 = .error a) ∧
      previousOutput (composing (breakParity (regioned 8) 0x100A04 3)) 1 ≤ 65535 ∧ (lineAt busy 0).tx = .silent ∧
      (lineAt (setLine busy 0 { Line.reset with tx := .sending, next := 256 }) 0).count ≤ 256 :=
  ⟨by decide, by decide, ⟨_, rfl, by decide⟩, ⟨_, rfl⟩, by decide, by decide, by decide⟩

/-- Log 4: a patched level left open counts as drawn also where a later fault, of the response, holds the circuit. -/
theorem test_held_composition_counts_its_draw :
    let s := composing (breakParity (bankWith .b0 [(515, 5), (516, 256)] (regioned 0)) (0x100000 + 2570) 10)
    (after (.circuitComposition 0) s).freeDraws = s.freeDraws + 1 ∧
      (after (.circuitComposition 0) s).faultList = [0x100000 + 2570] := by decide

/-- Circuit 3 patched to channel 5 at proportion 128, and circuit 4 to channel 0. -/
def patched (flags : Nat) : State := bankWith .b0 [(519, 5), (520, 128)] (regioned flags)

theorem meets_CircuitFollowsRegionAndPatch :
    let s := patched 0
    let base := bankBase s.active
    s.safeMode = false ∧ readWord s (base + 2564) = some 3 ∧ readWord s (base + 2563) = some 1 ∧
      (∀ c ∈ [1, 3], (1 : Word).toNat ≤ c ∧ c < (1 : Word).toNat + (3 : Word).toNat) ∧
      (1 : Word).toNat + (3 : Word).toNat ≤ 4 ∧ readWord s (base + 2572) = some 0 ∧
      governing s 3 = .ok (some (1, 1)) ∧ governing s 4 = .ok none ∧
      governing (breakParity s 0x100A04 3) 3 = .error 0x100A04 ∧ governing (breakParity s 0x100A03 3) 3 = .error 0x100A03 ∧
      readWord s (base + 519) = some 5 ∧ readWord s (base + 520) = some 128 ∧ readWord s (base + 7) = some 0 ∧
      mergedLevel s 5 false = .ok 0 ∧ readWord s 8 = some 255 ∧ readWord s (base + 521) = some 0 ∧
      readWord s (base + 522) = some 0 ∧ readWord s (base + 2570) = some 10 ∧
      (0 : Word).toNat % 8 = 0 ∧ (7 : Word).toNat % 8 = 7 ∧ readWord s (0x3000 + 33 * 7 + 65535 / 2048 + 1) = some 65535 ∧
      readWord (patched 8) (base + 2566) = some 40000 ∧ (8 : Word).getLsbD 3 = true ∧ (32 : Word).getLsbD 5 = true ∧
      readWord (bankWith .b0 [(2567, 1024)] (patched 32)) (base + 2567) = some 1024 ∧ 1024 < 1024 + (3 - 1) ∧
      1 ≤ 1024 + (1 - 1) := by decide

/-- A faulted patch word of a circuit of no region, and of a governed one the flags word, the priority that an LTP channel
does not need, a curve point and the limit. -/
theorem meets_CircuitFollowsRegionAndPatch_faults :
    let s := patched 7
    let base := bankBase s.active
    let first (t : State) (as : List Nat) : Option Nat := as.find? fun a => (stored t a).bad
    (let t := breakParity s (base + 521) 0
     governing t 4 = .ok none ∧ first t [base + 521, base + 522] = some (base + 521) ∧ first s [base + 521, base + 522] = none) ∧
    (let t := breakParity s (base + 2565) 0
     governing t 3 = .ok (some (1, 1)) ∧ readWord t (base + 2565) = none ∧ first t [base + 2565, base + 519] = some (base + 2565)) ∧
    first s [base + 2565, base + 519, base + 520, base + 7, 8] = none ∧ (7 : Word).getLsbD 3 = false ∧
    first (breakParity s 0x30E8 2048) [0x30E7, 0x30E8, base + 2570, base + 2568, base + 2569] = some 0x30E8 ∧
    first (breakParity s (base + 2569) 0) [0x30E7, 0x30E8, base + 2570, base + 2568, base + 2569] = some (base + 2569) ∧
    compose (breakParity s (base + 2569) 0) 3 3 = .error (base + 2569) := by decide +kernel

/-- R102, log 4: a proportion above 255 leaves the channel table entry read, so that a fault there holds the circuit. -/
theorem test_bad_proportion_reads_the_channel :
    let s := bankWith .b0 [(520, 256)] (patched 0)
    patchedFrom s 3 = .ok .unstated ∧ patchedFrom (breakParity s 0x100007 0) 3 = .error 0x100007 := by decide

theorem meets_RegionBoundsLevel :
    governing (regioned 0) 3 = .ok (some (1, 1)) ∧ needLive (regioned 0) (regionOff 1 + 2) = .ok 0 ∧ regionPark 0 = false ∧
      needLive (regioned 0) (regionOff 1 + 5) = .ok 100 ∧ needLive (regioned 0) (regionOff 1 + 6) = .ok 65000 ∧
      needLive (regioned 0) (regionOff 1 + 7) = .ok 10 ∧ (∃ u, compose (regioned 0) 3 3 = .ok u) ∧ (10 : Word) ≠ 0 ∧
      previousOutput (regioned 0) 3 ≤ 65535 :=
  ⟨by decide, by decide, by decide, by decide, by decide, by decide,
    ⟨⟨100, false⟩, by decide⟩, by decide, by decide⟩

theorem meets_SafeModeIsOneToOne :
    safe.safeMode = true ∧ 1 ≤ 512 ∧ (∀ p, entryFor (playbackAt safe p).list 512 = none) ∧ readWord safe 8 = some 255 ∧
      512 < 513 ∧ readWord (breakParity safe 8 255) 8 = none := by decide

/-- Playbacks 2 and 5 at a cue holding channel 40 (06, the worked case of one LTP channel). -/
def holding : State :=
  let at_ (v : Nat) : Playback := { Playback.reset with state := .atCue, cue := some ⟨10, 0, false, none, 0⟩, list := [⟨40, v, none⟩] }
  { setPlayback (setPlayback busy 1 (at_ 20560)) 4 (at_ 65535) with takeOrder := [1, 4] }

theorem meets_MergeTakesHighestOrWinner :
    let holds (p : PlaybackNo) : Prop := (playbackAt holding p).list.any (·.channel == 40) = true
    (∀ p, holds p → readWord holding (0x2000 + 16 * p.val + 2) = some 255) ∧
      (∀ p, holds p → readWord holding (0x2000 + 16 * p.val + 1) = some 0) ∧ readWord holding 7 = some 0 ∧
      holding.takeOrder.Nodup ∧ (∀ p, holds p → p ∈ holding.takeOrder) ∧ holds 4 ∧ (0 : Word).toNat ≤ (0 : Word).toNat ∧
      (∀ q, holds q → q ≠ 4 → holding.takeOrder.idxOf q < holding.takeOrder.idxOf 4) ∧
      readWord (rewrite holding 7 3) 7 = some 3 ∧ (0 : Word).toNat < (3 : Word).toNat := by decide

theorem meets_FrameEnds :
    ∀ tx ∈ [LineTx.sending, .stopping, .startPending],
      (lineAt (setLine busy 1 { Line.reset with tx := tx, next := 256 }) 1).tx = tx ∧
        (lineAt (setLine busy 1 { Line.reset with tx := tx, next := 256 }) 1).count ≤ 256 ∧
        255 < (lineAt (setLine busy 1 { Line.reset with tx := tx, next := 255 }) 1).count := by decide

/-! ### Playbacks -/

/-- A fade half done: channel 1 rising, channel 2 at rest, channel 3 falling. -/
def halfDone : Playback :=
  { state := .fading, cue := some ⟨10, 1, true, none, 7⟩, up := ⟨.running, 0, 99, 100⟩, down := ⟨.delay, 1, 0, 0⟩, profile := .smooth,
    follow := none, list := [⟨1, 0, some ⟨0, 65535, .up⟩⟩, ⟨2, 500, none⟩, ⟨3, 900, some ⟨900, 0, .down⟩⟩] }

/-- The active bank's two cues indexed, playback 1 bound to their stack, in a given state of its own. -/
def staged (pb : Playback) : State :=
  { setPlayback (rewrite (twoCues .b0 busy) 0x2000 2) 0 pb with
    stackIndex := busy.stackIndex.set 1 [⟨10, 1⟩, ⟨20, 0⟩], takeOrder := if pb.list = [] then [] else [0] }

def bound : Playback := { Playback.reset with state := .ready }

/-- At the first cue, with a follow remaining. -/
def atFirst (follow : Option Nat) : Playback :=
  { halfDone with state := .atCue, up := ⟨.done, 0, 50, 50⟩, down := ⟨.done, 0, 0, 50⟩, follow := follow, list := [⟨1, 65535, none⟩] }

/-- At the last cue. -/
def atLast : Playback := { atFirst none with cue := some ⟨20, 0, true, none, 7⟩ }

theorem meets_SetUpAimsEveryChannel :
    playbackOk halfDone ∧ ([(1, 0), (512, 255)] : List (Nat × Nat)).Pairwise (fun x y => x.1 < y.1) ∧
      (∃ en ∈ (setUp halfDone (cueData busy 0) ⟨10, 1⟩ (.timed 0)).list, ∃ f, en.fade = some f ∧ f.part = .up) ∧
      (setUp Playback.reset (cueData busy 0) ⟨10, 1⟩ .cue).list = [] :=
  ⟨by decide, by decide, ⟨⟨1, 65503, some ⟨65503, 65535, .up⟩⟩, by decide, ⟨65503, 65535, .up⟩, rfl, rfl⟩, by decide⟩

theorem meets_SetUpDoesNotJump :
    playbackOk (playbackAt (staged halfDone) 0) ∧ (cueData (staged halfDone) 0).look.Pairwise (fun x y => x.1 < y.1) ∧
      (cueData (staged halfDone) 0).upTime ≠ 0 ∧ (cueData (staged halfDone) 0).downTime ≠ 0 ∧
      (∃ e ∈ halfDone.list, e.channel = 1) ∧ ∀ e ∈ halfDone.list, e.channel ≠ 4 := by decide

/-- Which cue starts read their record and look without a fault, and do not follow at once. -/
theorem meets_CueCommandsTakeTheirCue :
    (∀ s ∈ [staged bound, staged halfDone, staged atLast],
      takenFromOwner s fromA ∧ s.followStuck = false ∧ playbackOf 1 = some 0 ∧ boundStack s 0 = some 2 ∧
        readCue s 0 = .ok (cueData s 0) ∧ readCue s 1 = .ok (cueData s 1) ∧ (cueData s 0).follow ≠ some 0 ∧
        (cueData s 1).follow ≠ some 0) ∧
      (playbackAt (staged bound) 0).state = .ready ∧ firstCue (staged bound) 2 = some ⟨10, 1⟩ ∧
      (playbackAt (staged halfDone) 0).state = .fading ∧
      nextCue (staged halfDone) 2 10 1 = .found (some ⟨20, 0⟩) ∧ previousCue (staged atLast) 2 20 = some ⟨10, 1⟩ ∧
      readWord (staged atLast) 0x2003 = some 200 ∧ namedCue (staged halfDone) 2 20 = some ⟨20, 0⟩ := by decide

/-- The lookups with LINK set and clear, at faulted flags and link words, and the faults of a cue start. -/
theorem meets_CueCommandsTakeTheirCue_lookups :
    let s := staged halfDone
    let a := bankBase s.active + 2627 + 12 * 1
    let linked := rewrite (rewrite s (a + 8) 48) (a + 10) 20
    (stackList s 2).Pairwise (fun e f => e.cue < f.cue) ∧ readWord s (a + 8) = some 16 ∧ (16 : Word).getLsbD 5 = false ∧
      readWord linked (a + 8) = some 48 ∧ (48 : Word).getLsbD 5 = true ∧ readWord linked (a + 10) = some 20 ∧
      readWord (breakParity linked (a + 10) 20) (a + 10) = none ∧ readWord (breakParity s (a + 8) 16) (a + 8) = none ∧
      (∀ i < 12, (readWord s (a + i)).isSome = true) ∧ readWord s (a + 3) = some 1 ∧
      (∀ j < 2 * (1 : Word).toNat, (readWord s (bankBase s.active + 14147 + 2 * (0 : Word).toNat + j)).isSome = true) ∧
      (∀ k ∈ [2, 3], readWord (breakParity s (a + k) 0) (a + k) = none) := by decide +kernel

/-- At the last cue, with every level of the first cue reached and a follow time of 0 in the first cue's record. -/
def chaining : State := rewrite (staged atLast) (0x100000 + 2648) 0

/-- What GOTO to the first cue leaves: the first cue completes, and so does the last one, which its follow takes. -/
def chained : State :=
  let u := afterSetUp chaining 0 ⟨10, 1⟩ (cueData chaining 1) .cue
  let v := clearFollow (complete u 0) 0
  complete (afterSetUp v 0 ⟨20, 0⟩ (cueData v 0) .cue) 0

/-- A cue taken with follow time 0 whose parts are DONE at the set-up. -/
theorem meets_CueCommandsTakeTheirCue_chain :
    namedCue chaining 2 10 = some ⟨10, 1⟩ ∧ readCue chaining 1 = .ok (cueData chaining 1) ∧
      (cueData chaining 1).follow = some 0 ∧ cueSettles 0 chainCues (afterSetUp chaining 0 ⟨10, 1⟩ (cueData chaining 1) .cue) chained := by
  refine ⟨by decide, by decide, by decide, ?_⟩
  change cueSettles 0 (2878 + 1 + 1) _ _
  rw [cueSettles, if_neg (by decide +kernel), if_neg (by decide +kernel)]
  refine .inr ⟨2, ⟨10, 1, false, some 0, 0⟩, by decide +kernel, by decide +kernel, .inr (.inr ⟨⟨20, 0⟩, by decide +kernel,
    .inr ⟨cueData (clearFollow (complete (afterSetUp chaining 0 ⟨10, 1⟩ (cueData chaining 1) .cue) 0) 0) 0, by decide +kernel, ?_⟩⟩)⟩
  rw [cueSettles, if_neg (by decide +kernel), if_pos (by decide +kernel)]
  rfl

theorem meets_CueCommandsAreRefused :
    takenFromOwner (staged Playback.reset) fromA ∧ (playbackAt (staged Playback.reset) 0).state = .unbound ∧
      playbackOf 16 = some 15 ∧ (playbackAt (staged bound) 0).state = .ready ∧
      firstCue (rewrite (staged bound) 0x2000 3) 3 = none ∧ nextCue (staged atLast) 2 20 0 = .found none ∧
      previousCue (staged halfDone) 2 10 = none ∧ namedCue (staged bound) 2 15 = none ∧
      readCue (breakParity (staged bound) (0x100000 + 2639 + 11) 0) 1 = .error [0x100000 + 2639 + 11] ∧
      boundStack (breakParity (staged bound) 0x2000 2) 0 = none ∧
      (let s := breakParity (staged halfDone) (0x100000 + 2639 + 8) 16
       (playbackAt s 0).state = .fading ∧ nextCue s 2 10 1 = .fault (0x100000 + 2639 + 8)) ∧
      (let s := breakParity (staged halfDone) 0x103743 0
       nextCue s 2 10 1 = .found (some ⟨20, 0⟩) ∧ faultedOf s (cueAddrs s 0) = [0x103743]) ∧
      (let s := breakParity (staged atLast) 0x2003 200
       (playbackAt s 0).state = .atCue ∧ previousCue s 2 20 = some ⟨10, 1⟩ ∧ readWord s (0x2000 + 16 * 0 + 3) = none) ∧
      (let s := breakParity (staged atLast) 0x103743 0
       readWord s (0x2000 + 16 * 0 + 3) = some 200 ∧ faultedOf s (cueAddrs s 1) = [0x103743]) := by decide

theorem meets_PauseAndResume :
    takenFromOwner (staged halfDone) fromA ∧ playbackOf 1 = some 0 ∧ (playbackAt (staged halfDone) 0).state = .fading ∧
      (playbackAt (staged (atFirst (some 5))) 0).follow ≠ none ∧
      (playbackAt (staged { halfDone with state := .paused }) 0).state = .paused := by decide

theorem meets_ReleaseIsTaken :
    takenFromOwner (staged halfDone) fromA ∧ playbackOf 1 = some 0 ∧ (playbackAt (staged bound) 0).state = .ready ∧
      (playbackAt (staged halfDone) 0).state ≠ .ready ∧ (playbackAt (staged halfDone) 0).state ≠ .unbound ∧
      readWord (staged halfDone) (0x2000 + 16 * 0 + 4) = some 300 ∧
      readWord (breakParity (staged halfDone) 0x2004 1) (0x2000 + 16 * 0 + 4) = none ∧
      (halfDone.list.filter fun e => 0 < currentLevel halfDone e) ≠ [] ∧ (300 : Word) ≠ 0 := by decide

def order : StepOrder := ⟨16, 16, 16, .goBackPause⟩

/-- No key acts at the next step expiry. -/
theorem keys_quiet (pb : Playback) : ∀ k, keyActs (staged pb) k = false := three rfl rfl rfl

theorem meets_FadeStepAdvances :
    (staged { halfDone with up := ⟨.running, 0, 98, 100⟩ }).phase ≠ .inReset ∧
      (staged { halfDone with up := ⟨.running, 0, 98, 100⟩ }).followStuck = false ∧
      (∀ k, keyActs (staged { halfDone with up := ⟨.running, 0, 98, 100⟩ }) k = false) ∧
      ∀ p, staysAtStep (playbackAt (staged { halfDone with up := ⟨.running, 0, 98, 100⟩ }) p) = true :=
  ⟨by decide, by decide, keys_quiet _, by decide⟩

def releasing : Playback := { halfDone with state := .releasing, list := [⟨3, 900, some ⟨900, 0, .down⟩⟩] }

theorem meets_CueAndReleaseComplete :
    (staged halfDone).phase ≠ .inReset ∧ (staged halfDone).followStuck = false ∧
      (playbackAt (staged halfDone) 0).state = .fading ∧ partsDone (advanceParts (playbackAt (staged halfDone) 0)) = true ∧
      (playbackAt (staged halfDone) 0).cue.bind (·.follow) ≠ some 0 ∧ (∀ k, keyActs (staged halfDone) k = false) ∧
      (∀ q, q ≠ 0 → staysAtStep (playbackAt (staged halfDone) q) = true) ∧
      (playbackAt (staged releasing) 0).state = .releasing ∧ partsDone (advanceParts (playbackAt (staged releasing) 0)) = true ∧
      (∀ k, keyActs (staged releasing) k = false) ∧ ∀ q, q ≠ 0 → staysAtStep (playbackAt (staged releasing) q) = true :=
  ⟨by decide, by decide, by decide, by decide, by decide, keys_quiet _, by decide, by decide, by decide, keys_quiet _, by decide⟩

/-- Playbacks 1 and 2 fading, each to complete at the next step expiry. -/
def twoDone : State := setPlayback (staged halfDone) 1 { halfDone with cue := some ⟨20, 0, true, none, 8⟩ }

/-- That step expiry in turns: the advance, then each playback's completion, the lower first. -/
def turns (i : Nat) : State :=
  let advanced := { twoDone with
    panel := steppedPanel twoDone.panel, playbacks := Vector.ofFn fun q => advancedPlayback (playbackAt twoDone q) }
  if i = 0 then advanced else if i = 1 then complete advanced 0 else complete (complete advanced 0) 1

/-- R64: the turns are those of the statement, and the two CUE_DONE reports stand lower playback first. -/
theorem meets_CueAndReleaseComplete_two :
    (∀ k, keyActs twoDone k = false) ∧ (∀ q : PlaybackNo, stepTakes (playbackAt twoDone q) q (turns q.val) (turns (q.val + 1))) ∧
      (after (.fadeStep order) twoDone).reports = [⟨.cueDone 0 10 7, false⟩, ⟨.cueDone 1 20 8, false⟩] := by
  refine ⟨three rfl rfl rfl, ?_, by decide +kernel⟩
  intro q
  have stays : ∀ q : PlaybackNo, 2 ≤ q.val → staysAtStep (playbackAt twoDone q) = true := by decide
  by_cases h0 : q = 0
  · subst h0
    rw [stepTakes, if_neg (by decide)]
    change cueSettles 0 (2879 + 1) _ _
    rw [cueSettles, if_neg (by decide +kernel), if_pos (by decide +kernel)]
    rfl
  by_cases h1 : q = 1
  · subst h1
    rw [stepTakes, if_neg (by decide)]
    change cueSettles 1 (2879 + 1) _ _
    rw [cueSettles, if_neg (by decide +kernel), if_pos (by decide +kernel)]
    rfl
  · have h : 2 ≤ q.val := by
      have := Fin.val_ne_of_ne h0; have := Fin.val_ne_of_ne h1
      simp only [Fin.val_zero, Fin.val_one] at *; omega
    have a (n : Nat) (hn : 2 ≤ n) : turns n = turns 2 := by simp only [turns]; rw [if_neg (by omega), if_neg (by omega)]; rfl
    rw [stepTakes, if_pos (stays q h), a _ h, a _ (by omega)]

theorem meets_FollowTakesNextCue :
    (staged (atFirst (some 1))).phase ≠ .inReset ∧ (staged (atFirst (some 1))).followStuck = false ∧
      (playbackAt (staged (atFirst (some 1))) 0).state = .atCue ∧ (playbackAt (staged (atFirst (some 1))) 0).follow = some 1 ∧
      (playbackAt (staged (atFirst (some 1))) 0).cue = some ⟨10, 1, true, none, 7⟩ ∧
      boundStack (staged (atFirst (some 1))) 0 = some 2 ∧ (∀ k, keyActs (staged (atFirst (some 1))) k = false) ∧
      (∀ q, q ≠ 0 → staysAtStep (playbackAt (staged (atFirst (some 1))) q) = true) ∧
      nextCue (staged (atFirst (some 1))) 2 10 1 = .found (some ⟨20, 0⟩) ∧
      readCue (staged (atFirst (some 1))) 0 = .ok (cueData (staged (atFirst (some 1))) 0) ∧
      (cueData (staged (atFirst (some 1))) 0).follow ≠ some 0 ∧
      nextCue (staged { atLast with follow := some 1 }) 2 20 0 = .found none :=
  ⟨by decide, by decide, by decide, by decide, by decide, by decide, keys_quiet _, by decide, by decide, by decide, by decide,
    by decide⟩

/-- The faults a follow meets: of the bound stack, of the next-cue lookup, and of the cue start. -/
theorem meets_FollowTakesNextCue_faults :
    let s := staged (atFirst (some 1))
    boundStack (breakParity s 0x2000 2) 0 = none ∧
      nextCue (breakParity s (0x100000 + 2639 + 8) 16) 2 10 1 = .fault (0x100000 + 2639 + 8) ∧
      readCue (breakParity s 0x103743 0) 0 = .error [0x103743] := by decide

/-- A fade whose cue has follow time 0, complete at the next step expiry; the cue it takes finds every level at rest, and is
complete at once (R62). -/
theorem meets_FollowTakesNextCue_zero :
    let pb := { halfDone with cue := some ⟨10, 1, true, some 0, 7⟩ }
    (playbackAt (staged pb) 0).state = .fading ∧ partsDone (advanceParts (playbackAt (staged pb) 0)) = true ∧
      boundStack (staged pb) 0 = some 2 ∧ nextCue (staged pb) 2 10 1 = .found (some ⟨20, 0⟩) ∧
      (after (.cueCompletion 0 order) (staged pb)).reports = [⟨.cueDone 0 10 7, false⟩, ⟨.cueDone 0 20 0, false⟩] ∧
      (playbackAt (after (.cueCompletion 0 order) (staged pb)) 0).cue = some ⟨20, 0, true, none, 0⟩ := by decide +kernel

/-- The GO key as it stands. -/
def keyed (ks : KeyState) (s : State) : State := { s with panel := { s.panel with go := ks } }

theorem meets_KeysAreDebounced :
    (keyState (keyed ⟨true, false, 0⟩ quiet).panel .go).input = true ∧ (keyState quiet.panel .go).input ≠ true ∧
      (let s := keyed ⟨false, true, 1⟩ (staged bound)
       s.phase ≠ .inReset ∧ (keyState s.panel .go).stable = 1 ∧ (keyState s.panel .go).pressed = true ∧
        (keyState s.panel .go).input = false ∧ s.followStuck = false ∧ (∀ j, keyActs s j = false) ∧
        ∀ p, staysAtStep (playbackAt s p) = true) :=
  ⟨by decide, by decide, by decide, by decide, by decide, by decide, by decide, three rfl rfl rfl, by decide⟩

theorem meets_PressedKeyCommandsPlayback :
    let s := keyed ⟨true, false, 1⟩ (staged bound)
    s.phase = .running ∧ (keyState s.panel .go).stable = 1 ∧ (keyState s.panel .go).pressed = false ∧
      (keyState s.panel .go).input = true ∧ s.followStuck = false ∧ (∀ j, j ≠ .go → keyActs s j = false) ∧
      (∀ q, staysAtStep (playbackAt s q) = true) ∧ (panelPlayback s).val < (keyPlace order .go).val ∧
      s.working.panelEnable = true :=
  ⟨by decide, by decide, by decide, by decide, by decide, three (fun h => absurd rfl h) (fun _ => rfl) (fun _ => rfl), by decide,
    by decide, by decide⟩

/-- The PAUSE key over a panel playback that fades, waits for a follow, or is paused. -/
theorem meets_PressedKeyCommandsPlayback_pause :
    ∀ pb ∈ [{ halfDone with up := ⟨.running, 0, 50, 100⟩ }, atFirst (some 5),
        { halfDone with state := .paused, up := ⟨.running, 0, 50, 100⟩ }, atLast],
      let s := { staged pb with panel := ⟨KeyState.reset, KeyState.reset, ⟨true, false, 1⟩⟩ }
      (keyState s.panel .pause).stable = 1 ∧ (∀ q, staysAtStep (playbackAt s q) = true) ∧
        keyActs s .go = false ∧ keyActs s .back = false ∧ ¬ (panelPlayback s).val < (keyPlace ⟨0, 0, 0, .goBackPause⟩ .pause).val ∧
        goes (.keyPressed .pause order) s = true := by decide +kernel

theorem meets_PressedKeyCommandsPlayback_resume :
    let pb : Playback := { halfDone with state := .paused, up := ⟨.running, 0, 50, 100⟩ }
    (playbackAt (staged pb) 0).state = .paused ∧ partsDone (advanceParts (playbackAt (staged pb) 0)) = false := by decide

/-- R73: of two keys recognised at one step expiry, GO acts before the playback's step and PAUSE after it. -/
theorem test_two_keys_around_a_playback_step :
    let s := { staged bound with panel := ⟨⟨true, false, 1⟩, KeyState.reset, ⟨true, false, 1⟩⟩ }
    let pb := playbackAt (after (.fadeStep ⟨0, 0, 1, .pauseGoBack⟩) s) 0
    pb.state = .paused ∧ pb.up.elapsed = 1 := by decide +kernel

/-! ### Invariants -/

/-- Full reset with its release waiting. -/
def starting : State := { State.reset with pending := [.resetRelease] }

theorem starting_steps : ∃ t, step starting = .next t := ⟨_, rfl⟩

theorem meets_StepKeepsConsole : ConsoleInv starting :=
  ⟨both (by decide) (by decide), by decide, by decide, by decide, by decide, by decide, by decide, by decide⟩

theorem meets_StepKeepsQueues : QueueInv starting :=
  ⟨both (by decide) (by decide), by decide, both (by decide) (by decide), by decide, fun h => absurd h (by decide)⟩

theorem meets_StepKeepsTableMemory : StoreInv starting ∧ SettingsInv starting :=
  ⟨⟨by decide, by decide, by decide, by decide, by decide, by decide, by decide, by decide, by decide, by decide,
      fun h => absurd h (by decide)⟩,
    ⟨by decide, by decide, by decide, by decide, by decide, by decide, by decide, by decide⟩⟩

theorem meets_StepKeepsPlaybacks : PlaybackInv starting := ⟨by decide, by decide, by decide, by decide⟩

end Sys2Proof.Tests
end

section
/-! SUPPORT. What the links, the arbiter and the working copies keep while another block acts: a view of the state that holds
these fields alone, and for each operation of the other blocks that it leaves the view as it was. -/

namespace Sys2Proof.Machine

/-! ## Two views of the state -/

/-- The fields that no operation of the queues, of table memory, of the output lines or of the composer changes. -/
structure CoreView where
  phase       : Phase
  links       : PerLink LinkRx
  arb         : Arbiter
  working     : Working
  followStuck : Bool

def coreView (s : State) : CoreView := ⟨s.phase, s.links, s.arb, s.working, s.followStuck⟩

/-- The fields that ConsoleInv speaks of. -/
structure ConsoleView where
  phase      : Phase
  links      : PerLink LinkRx
  arb        : Arbiter
  sourceMode : SourceMode
  preferred  : Link

def consoleView (s : State) : ConsoleView := ⟨s.phase, s.links, s.arb, s.working.sourceMode, s.working.preferred⟩

theorem coreView_eq_iff {s t : State} : coreView t = coreView s ↔
    t.phase = s.phase ∧ t.links = s.links ∧ t.arb = s.arb ∧ t.working = s.working ∧ t.followStuck = s.followStuck := by
  simp [coreView]

theorem consoleView_eq_iff {s t : State} : consoleView t = consoleView s ↔
    t.phase = s.phase ∧ t.links = s.links ∧ t.arb = s.arb ∧ t.working.sourceMode = s.working.sourceMode ∧
      t.working.preferred = s.working.preferred := by
  simp [consoleView]

theorem consoleView_of_coreView {s t : State} (h : coreView t = coreView s) : consoleView t = consoleView s := by
  obtain ⟨hp, hl, ha, hw, -⟩ := coreView_eq_iff.mp h
  simp [consoleView, hp, hl, ha, hw]

theorem followStuck_of_coreView {s t : State} (h : coreView t = coreView s) : t.followStuck = s.followStuck :=
  congrArg CoreView.followStuck h

/-- A fold keeps a view that each of its steps keeps. -/
theorem foldl_keeps {β γ : Type} (view : State → γ) (f : State → β → State) (h : ∀ s b, view (f s b) = view s)
    (l : List β) (s : State) : view (l.foldl f s) = view s := by
  induction l generalizing s with
  | nil => rfl
  | cons b l ih => exact (ih (f s b)).trans (h s b)

/-! ## The queues, the store and the fault list -/

@[simp] theorem coreView_startFrame (s : State) (x : Link) : coreView (startFrame s x) = coreView s := by
  simp [coreView]

@[simp] theorem coreView_startIfIdle (s : State) (x : Link) : coreView (startIfIdle s x) = coreView s := by
  simp [coreView]

@[simp] theorem coreView_offerReport (s : State) (k : ReportKind) : coreView (offerReport s k) = coreView s := by
  simp [coreView]

@[simp] theorem coreView_queueReply (s : State) (x : Link) (r : Reply) : coreView (queueReply s x r) = coreView s := by
  simp [coreView]

@[simp] theorem coreView_answered (s : State) (r : Req) (code : Byte) (res : Result) (data : List Byte) :
    coreView (answered s r code res data) = coreView s := by
  unfold answered; split <;> simp

@[simp] theorem coreView_offerFault (s : State) (a : Nat) : coreView (offerFault s a) = coreView s := by
  simp [coreView]

@[simp] theorem coreView_offerFaults (s : State) (as : List Nat) : coreView (offerFaults s as) = coreView s :=
  foldl_keeps coreView offerFault coreView_offerFault as s

@[simp] theorem coreView_rewrite (s : State) (a : Nat) (v : Word) : coreView (rewrite s a v) = coreView s := rfl

@[simp] theorem coreView_rewriteAll (s : State) (ws : List (Nat × Word)) : coreView (rewriteAll s ws) = coreView s :=
  foldl_keeps coreView (fun t (w : Nat × Word) => rewrite t w.1 w.2) (fun _ _ => rfl) ws s

@[simp] theorem coreView_setLine (s : State) (k : LineNo) (l : Line) : coreView (setLine s k l) = coreView s := rfl

@[simp] theorem coreView_clearVerified (s : State) (b : Bank) : coreView (clearVerified s b) = coreView s := rfl

/-! ## Show banks, patch hold and the table operations -/

@[simp] theorem coreView_holdPatch (s : State) : coreView (holdPatch s).1 = coreView s := by
  unfold holdPatch; split <;> rfl

theorem coreView_withPatchHold (s : State) (on : Bool) : coreView { s with patchHold := on } = coreView s := rfl

@[simp] theorem coreView_applyPatch (s : State) : coreView (applyPatch s).1 = coreView s := by
  have taken (ws : List (Nat × Word)) (n : Nat) :
      coreView (if n = 0 then rewriteAll s ws else clearVerified (rewriteAll s ws) s.active) = coreView s := by
    split <;> simp
  unfold applyPatch
  split
  · rfl
  · exact (coreView_withPatchHold _ false).trans (taken _ _)

@[simp] theorem coreView_discardPatch (s : State) : coreView (discardPatch s).1 = coreView s := by
  unfold discardPatch; split <;> rfl

@[simp] theorem coreView_startCopy (s : State) (src dst n : Nat) : coreView (startCopy s src dst n).1 = coreView s := by
  have cleared (c : Bool) (t : State) (b : Bank) : coreView (if c then clearVerified t b else t) = coreView t := by
    cases c <;> rfl
  unfold startCopy
  iterate 5 (split; rfl)
  exact (cleared _ _ _).trans (cleared _ _ _)

@[simp] theorem coreView_startVerify (s : State) (b : Bank) : coreView (startVerify s b).1 = coreView s := by
  unfold startVerify
  iterate 2 (split; rfl)
  rfl

@[simp] theorem coreView_endOperation (s : State) (op : OpKind) (res : OpResult) (addr : Nat) :
    coreView (endOperation s op res addr) = coreView s :=
  coreView_offerReport _ _

@[simp] theorem coreView_copyOne (s : State) : coreView (copyOne s) = coreView s := by
  unfold copyOne
  split
  · split
    · dsimp only
      split
      · rfl
      · exact coreView_endOperation _ _ _ _
    · simp
    · rfl
  all_goals rfl

@[simp] theorem coreView_endVerify (s : State) (b : Bank) (stale : Bool) (res : OpResult) (addr : Nat) :
    coreView (endVerify s b stale res addr) = coreView s :=
  coreView_endOperation _ _ _ _

@[simp] theorem coreView_declaredStep (s : State) (b : Bank) (stale : Bool) (reads : Nat) (crc : BitVec 32)
    (upper : Option Word) (w : Word) : coreView (declaredStep s b stale reads crc upper w) = coreView s := by
  unfold declaredStep
  split
  · rfl
  · split
    · rfl
    · exact coreView_endVerify _ _ _ _ _

@[simp] theorem coreView_tablesStep (s : State) (b : Bank) (stale : Bool) (reads count : Nat) (item : CheckItem)
    (got : List Word) (w : Word) : coreView (tablesStep s b stale reads count item got w) = coreView s := by
  unfold tablesStep
  split
  · rfl
  · exact coreView_endVerify _ _ _ _ _
  · dsimp only
    split
    · rfl
    · exact coreView_endVerify _ _ _ _ _

@[simp] theorem coreView_verifyOne (s : State) : coreView (verifyOne s) = coreView s := by
  unfold verifyOne
  split
  · split
    · rfl
    · split
      · simp [verifyFault]
      · split
        · rfl
        · exact coreView_declaredStep _ _ _ _ _ _ _
        · exact coreView_tablesStep _ _ _ _ _ _ _ _
  all_goals rfl

@[simp] theorem coreView_indexRecord (b : Bank) (s : State) (pos : Nat) : coreView (indexRecord b s pos) = coreView s := by
  unfold indexRecord
  dsimp only
  split
  · rfl
  · exact coreView_offerFaults _ _

@[simp] theorem coreView_buildIndex (s : State) (b : Bank) : coreView (buildIndex s b) = coreView s := by
  unfold buildIndex
  dsimp only
  split
  · exact coreView_offerFault _ _
  · exact foldl_keeps coreView _ (coreView_indexRecord b) _ _

@[simp] theorem coreView_switchTo (s : State) (b : Bank) : coreView (switchTo s b).1 = coreView s := by
  refine (coreView_offerReport _ _).trans ((coreView_buildIndex _ _).trans ?_)
  cases s.safeMode <;> rfl

@[simp] theorem coreView_switchBank (s : State) (b : Bank) : coreView (switchBank s b).1 = coreView s := by
  unfold switchBank
  iterate 4 (split; rfl)
  exact coreView_switchTo s b

@[simp] theorem coreView_abortOperation (s : State) : coreView (abortOperation s).1 = coreView s := by
  unfold abortOperation; split <;> rfl

@[simp] theorem coreView_restartPart (s : State) : coreView (restartPart s) = coreView s := by
  have aborted : coreView { (abortOperation (clearFades s)).1 with patchHold := false } = coreView s :=
    (coreView_withPatchHold _ false).trans (coreView_abortOperation _)
  have loaded (u : State) : coreView (if u.safeMode then u else loadShadow u) = coreView u := by cases u.safeMode <;> rfl
  have emptied (u : State) : coreView { u with
      replies := ⟨[], []⟩, reports := [], dropMark := false, faultList := [], faultOverflow := false } = coreView u := rfl
  unfold restartPart
  dsimp only
  split
  · exact (coreView_offerReport _ _).trans ((emptied _).trans ((loaded _).trans aborted))
  · exact (emptied _).trans ((loaded _).trans aborted)

/-! ## The output lines and the composer -/

@[simp] theorem coreView_lineTick (s : State) (k : LineNo) : coreView (lineTick s k) = coreView s := by
  unfold lineTick
  dsimp only
  split
  · split
    · split <;> rfl
    · rfl
  · rfl

@[simp] theorem coreView_composeCircuit (s : State) (c period : Nat) :
    coreView (composeCircuit s c period).1 = coreView s := by
  obtain ⟨n, -, ⟨u, -, h⟩ | ⟨a, -, h⟩⟩ := composeCircuit_cases s c period
  · rw [h]; rfl
  · rw [h]; exact coreView_offerFault s a

@[simp] theorem coreView_composeNext (s : State) (k : LineNo) : coreView (composeNext s k) = coreView s := by
  unfold composeNext
  dsimp only
  split
  · exact coreView_composeCircuit _ _ _
  · rfl

@[simp] theorem coreView_frameEnd (s : State) (k : LineNo) : coreView (frameEnd s k) = coreView s := by
  unfold frameEnd
  dsimp only
  split
  · split <;> rfl
  · rfl

@[simp] theorem coreView_startLine (s : State) (k : LineNo) : coreView (startLine s k) = coreView s := by
  unfold startLine; split <;> rfl

/-! ## The power-up check -/

@[simp] theorem coreView_repairWord (s : State) (a : Nat) : coreView (repairWord s a) = coreView s := by
  unfold repairWord; split <;> simp

@[simp] theorem coreView_repairCurve (s : State) (g : Nat) : coreView (repairCurve s g) = coreView s := by
  unfold repairCurve; split <;> simp

@[simp] theorem coreView_examineBank (s : State) (b : Bank) : coreView (examineBank s b).1 = coreView s := by
  unfold examineBank; split <;> simp

@[simp] theorem coreView_decideBank (s : State) : coreView (decideBank s).1 = coreView s := by
  unfold decideBank
  dsimp only
  split
  · exact coreView_examineBank _ _
  · split <;> exact (coreView_examineBank _ _).trans (coreView_examineBank _ _)

@[simp] theorem coreView_loadBank (s : State) (r : StartResult) : coreView (loadBank s r) = coreView s := by
  cases r
  case safe => rfl
  all_goals exact coreView_buildIndex _ _

@[simp] theorem coreView_parityFaultAt (s : State) (a : Nat) (v : Word) : coreView (parityFaultAt s a v) = coreView s := by
  unfold parityFaultAt; split <;> rfl

/-! ## The fade engine -/

@[simp] theorem coreView_complete (s : State) (p : PlaybackNo) : coreView (complete s p) = coreView s := by
  rw [complete_frame]; rfl

@[simp] theorem coreView_beginCue (s : State) (p : PlaybackNo) (e : IndexEntry) (by_ : TakenBy) :
    coreView (beginCue s p e by_).1 = coreView s := by
  rcases beginCue_cases s p e by_ with ⟨bad, -, h⟩ | ⟨d, -, h⟩
  · rw [h]; exact coreView_offerFaults s bad
  · rw [h]; rfl

@[simp] theorem coreView_beginNext (s : State) (p : PlaybackNo) : coreView (beginNext s p).1 = coreView s := by
  unfold beginNext
  split
  · simp
  · rfl
  · split <;> simp

@[simp] theorem coreView_beginFirst (s : State) (p : PlaybackNo) : coreView (beginFirst s p).1 = coreView s := by
  unfold beginFirst
  split
  · simp
  · split <;> simp

@[simp] theorem coreView_beginBack (s : State) (p : PlaybackNo) : coreView (beginBack s p).1 = coreView s := by
  unfold beginBack
  split
  · simp
  · rfl
  · split
    · rfl
    · split <;> simp

@[simp] theorem coreView_beginNamed (s : State) (p : PlaybackNo) (n : Nat) (t : Option Word) :
    coreView (beginNamed s p n t).1 = coreView s := by
  unfold beginNamed
  split
  · simp
  · split <;> simp

@[simp] theorem coreView_pausePlayback (s : State) (p : PlaybackNo) : coreView (pausePlayback s p).1 = coreView s := by
  unfold pausePlayback
  dsimp only
  split
  · rfl
  · split <;> rfl
  all_goals rfl

@[simp] theorem coreView_resumePlayback (s : State) (p : PlaybackNo) : coreView (resumePlayback s p).1 = coreView s := by
  unfold resumePlayback
  dsimp only
  split <;> rfl

@[simp] theorem coreView_releaseWith (s : State) (p : PlaybackNo) (d : Nat) : coreView (releaseWith s p d) = coreView s := by
  unfold releaseWith
  dsimp only
  split <;> rfl

@[simp] theorem coreView_releasePlayback (s : State) (p : PlaybackNo) (t : Option Word) :
    coreView (releasePlayback s p t).1 = coreView s := by
  unfold releasePlayback
  split
  case h_1 => rfl
  case h_2 => rfl
  all_goals
    split
    · exact coreView_releaseWith _ _ _
    · split <;> simp

@[simp] theorem coreView_clearFades (s : State) : coreView (clearFades s) = coreView s := rfl

/-- A chain of completions changes no field that ConsoleInv speaks of; it can mark a follow chain without an end. -/
theorem consoleView_completeChain (n : Nat) (s : State) (p : PlaybackNo) :
    consoleView (completeChain n s p) = consoleView s := by
  induction n generalizing s with
  | zero => rfl
  | succ n ih =>
    have completed : consoleView (complete s p) = consoleView s := consoleView_of_coreView (coreView_complete s p)
    have next : consoleView (beginNext (clearFollow (complete s p) p) p).1 = consoleView s :=
      (consoleView_of_coreView (coreView_beginNext _ p)).trans completed
    unfold completeChain
    dsimp only
    split
    · split
      · exact (ih _).trans next
      · exact next
    · exact completed

theorem consoleView_completeIfDone (s : State) (p : PlaybackNo) : consoleView (completeIfDone s p) = consoleView s := by
  unfold completeIfDone
  split
  · exact consoleView_completeChain _ s p
  · rfl

theorem consoleView_finishStart {s : State} {r : State × Started} (p : PlaybackNo) (h : coreView r.1 = coreView s) :
    consoleView (finishStart r p).1 = consoleView s := by
  unfold finishStart
  split
  · exact consoleView_of_coreView h
  · exact (consoleView_completeIfDone r.1 p).trans (consoleView_of_coreView h)

theorem consoleView_followExpires (s : State) (p : PlaybackNo) : consoleView (followExpires s p) = consoleView s :=
  consoleView_finishStart p (coreView_beginNext _ p)

theorem consoleView_goPlayback (s : State) (p : PlaybackNo) : consoleView (goPlayback s p).1 = consoleView s := by
  have first := consoleView_finishStart p (coreView_beginFirst s p)
  have next := consoleView_finishStart p (coreView_beginNext s p)
  unfold goPlayback
  split
  case h_1 => rfl
  case h_2 | h_3 => exact first
  case h_4 | h_5 | h_6 => exact next

theorem consoleView_backPlayback (s : State) (p : PlaybackNo) : consoleView (backPlayback s p).1 = consoleView s := by
  have back := consoleView_finishStart p (coreView_beginBack s p)
  unfold backPlayback
  split
  case h_1 | h_2 | h_3 => exact back
  case h_4 | h_5 | h_6 => rfl

theorem consoleView_gotoPlayback (s : State) (p : PlaybackNo) (n : Nat) (t : Option Word) :
    consoleView (gotoPlayback s p n t).1 = consoleView s := by
  have named := consoleView_finishStart p (coreView_beginNamed s p n t)
  unfold gotoPlayback
  split
  · rfl
  all_goals
    split
    · rfl
    · exact named

theorem consoleView_tickPlayback (s : State) (p : PlaybackNo) : consoleView (tickPlayback s p) = consoleView s := by
  unfold tickPlayback
  dsimp only
  split
  · split
    · exact consoleView_completeChain _ _ p
    · rfl
  · split <;> rfl
  · split
    · rfl
    · split
      · exact consoleView_followExpires s p
      · rfl
  all_goals rfl

theorem consoleView_panelCommand (s : State) (k : Key) : consoleView (panelCommand s k) = consoleView s := by
  cases k
  case go => exact consoleView_goPlayback _ _
  case back => exact consoleView_backPlayback _ _
  case pause =>
    simp only [panelCommand]
    split
    · exact consoleView_of_coreView (coreView_resumePlayback _ _)
    · exact consoleView_of_coreView (coreView_pausePlayback _ _)

theorem consoleView_tickKey (s : State) (k : Key) : consoleView (tickKey s k) = consoleView s := by
  unfold tickKey
  dsimp only
  split
  · exact consoleView_panelCommand _ k
  · rfl

theorem consoleView_tickKeysAt (o : StepOrder) (i : Nat) (s : State) : consoleView (tickKeysAt o i s) = consoleView s :=
  foldl_keeps consoleView tickKey consoleView_tickKey _ s

theorem consoleView_fadeTick (s : State) (o : StepOrder) : consoleView (fadeTick s o) = consoleView s := by
  unfold fadeTick
  split
  · rfl
  · refine (consoleView_tickKeysAt _ _ _).trans (foldl_keeps consoleView _ (fun u p => ?_) _ s)
    exact (consoleView_tickPlayback _ p).trans (consoleView_tickKeysAt _ _ u)

end Sys2Proof.Machine
end

section
/-! SUPPORT. The invariant of the links and of the control arbiter taken apart: ranges, the placing of ownership, and the
console source, which under that placing fits the owner link alone. -/

namespace Sys2Proof.Machine

/-! ## The parts of ConsoleInv -/

/-- The ranges of ConsoleInv: each link receiver's state is allowed, the snapshot and the elapsed count are in range. -/
structure RangesOk (s : State) : Prop where
  links    : ∀ x, linkOk (linkOf s x)
  snapshot : channelTableOk 65535 s.arb.snapshot
  elapsed  : s.arb.elapsed ≤ 65535

/-- The placing of ownership in ConsoleInv: the lock needs a LIVE owner (R23, R25), SOLE has the preferred link as owner (R35,
R36), and in the other modes a LIVE standby goes with a LIVE owner (R25, R26, R35). -/
structure OwnerOk (s : State) : Prop where
  lock    : s.arb.lock = true → isLive s s.arb.owner = true
  sole    : s.working.sourceMode = .sole → s.arb.owner = s.working.preferred
  standby : s.working.sourceMode ≠ .sole → isLive s (otherLink s.arb.owner) = true → isLive s s.arb.owner = true

/-- Which console-source states go with a mode and an owner link that is LIVE or not (R25, R26, R29, R31). -/
def sourceFits (src : SourceState) (m : SourceMode) (ownerLive : Bool) : Bool :=
  match src with
  | .normal => m != .isolated && ownerLive
  | .handover => m == .isolated || ownerLive
  | .off => m == .isolated
  | .hold | .lossFade | .dark => !ownerLive

theorem otherLink_ne (x : Link) : otherLink x ≠ x := by cases x <;> decide

theorem eq_otherLink_of_ne {x y : Link} (h : y ≠ x) : y = otherLink x := by
  cases x <;> cases y <;> simp_all [otherLink]

/-- Under the placing of ownership the console is present exactly where the owner link is LIVE. -/
theorem consolePresent_eq {s : State} (h : OwnerOk s) : consolePresent s = isLive s s.arb.owner := by
  unfold consolePresent
  split
  case h_1 hm =>
    have hs := h.standby (by simp [hm])
    cases ho : s.arb.owner <;> simp only [ho, otherLink] at hs <;> grind
  all_goals rfl

/-- Under the placing of ownership the console source fits the links exactly where it fits the owner link. -/
theorem sourceOk_eq {s : State} (h : OwnerOk s) :
    sourceOk s = sourceFits s.arb.source s.working.sourceMode (isLive s s.arb.owner) := by
  have present := consolePresent_eq h
  have waits : (if s.working.sourceMode = .sole then !isLive s s.working.preferred else !isLive s .a && !isLive s .b)
      = !isLive s s.arb.owner := by
    split
    · rename_i hm; rw [h.sole hm]
    · rename_i hm
      have hs := h.standby hm
      cases ho : s.arb.owner <;> simp only [ho, otherLink] at hs <;> grind
  unfold sourceOk sourceFits
  cases s.arb.source <;> simp only [present, waits]

theorem rangesOk_of_consoleInv {s : State} (h : ConsoleInv s) : RangesOk s := by
  obtain ⟨hlinks, hsnap, helapsed, -⟩ := h
  exact ⟨hlinks, hsnap, helapsed⟩

theorem ownerOk_of_consoleInv {s : State} (h : ConsoleInv s) (hp : s.phase ≠ .inReset) : OwnerOk s := by
  obtain ⟨-, -, -, hlock, hsole, hstandby, -⟩ := h
  exact ⟨hlock, hsole hp, hstandby⟩

theorem sourceFits_of_consoleInv {s : State} (h : ConsoleInv s) (hp : s.phase ≠ .inReset) :
    sourceFits s.arb.source s.working.sourceMode (isLive s s.arb.owner) = true := by
  rw [← sourceOk_eq (ownerOk_of_consoleInv h hp)]
  obtain ⟨-, -, -, -, -, -, hsource, -⟩ := h
  exact hsource

/-- Out of full reset the invariant is its three parts. -/
theorem consoleInv_of_parts {s : State} (hp : s.phase ≠ .inReset) (hr : RangesOk s) (ho : OwnerOk s)
    (hs : sourceFits s.arb.source s.working.sourceMode (isLive s s.arb.owner) = true) : ConsoleInv s :=
  ⟨hr.links, hr.snapshot, hr.elapsed, ho.lock, fun _ => ho.sole, ho.standby, (sourceOk_eq ho).trans hs,
    fun h => absurd h hp⟩

theorem links_of_inReset {s : State} (h : ConsoleInv s) (hp : s.phase = .inReset) (x : Link) : linkOf s x = LinkRx.reset := by
  obtain ⟨-, -, -, -, -, -, -, hreset⟩ := h
  cases x <;> simp [linkOf, PerLink.get, (hreset hp).1]

/-! ## States of one view -/

theorem linkOf_of_consoleView {s t : State} (h : consoleView t = consoleView s) (x : Link) : linkOf t x = linkOf s x := by
  simp [linkOf, (consoleView_eq_iff.mp h).2.1]

theorem isLive_of_consoleView {s t : State} (h : consoleView t = consoleView s) (x : Link) : isLive t x = isLive s x := by
  simp [isLive, linkOf_of_consoleView h]

@[simp] theorem linkOf_offerReport (s : State) (k : ReportKind) (x : Link) : linkOf (offerReport s k) x = linkOf s x := by
  simp [linkOf]

@[simp] theorem isLive_offerReport (s : State) (k : ReportKind) (x : Link) : isLive (offerReport s k) x = isLive s x := by
  simp [isLive]

theorem rangesOk_of_consoleView {s t : State} (h : consoleView t = consoleView s) (hs : RangesOk s) : RangesOk t := by
  obtain ⟨-, -, ha, -⟩ := consoleView_eq_iff.mp h
  exact ⟨fun x => linkOf_of_consoleView h x ▸ hs.links x, ha ▸ hs.snapshot, ha ▸ hs.elapsed⟩

theorem ownerOk_of_consoleView {s t : State} (h : consoleView t = consoleView s) (hs : OwnerOk s) : OwnerOk t := by
  obtain ⟨-, -, ha, hm, hpref⟩ := consoleView_eq_iff.mp h
  exact ⟨by simpa [ha, isLive_of_consoleView h] using hs.lock, by simpa [ha, hm, hpref] using hs.sole,
    by simpa [ha, hm, isLive_of_consoleView h] using hs.standby⟩

theorem sourceOk_of_consoleView {s t : State} (h : consoleView t = consoleView s) : sourceOk t = sourceOk s := by
  obtain ⟨-, -, ha, hm, hpref⟩ := consoleView_eq_iff.mp h
  simp [sourceOk, consolePresent, ha, hm, hpref, isLive_of_consoleView h]

/-- The invariant is about the view alone. -/
theorem consoleInv_of_consoleView {s t : State} (h : consoleView t = consoleView s) (hs : ConsoleInv s) : ConsoleInv t := by
  have hr := rangesOk_of_consoleView h (rangesOk_of_consoleInv hs)
  obtain ⟨-, -, -, hlock, hsole, hstandby, hsource, hreset⟩ := hs
  obtain ⟨hphase, hl, ha, hm, hpref⟩ := consoleView_eq_iff.mp h
  refine ⟨hr.links, hr.snapshot, hr.elapsed, ?_, ?_, ?_, (sourceOk_of_consoleView h).trans hsource, ?_⟩
  · simpa [ha, isLive_of_consoleView h] using hlock
  · simpa [ha, hm, hpref, hphase] using hsole
  · simpa [ha, hm, isLive_of_consoleView h] using hstandby
  · simpa [hphase, hl, ha] using hreset

theorem consoleInv_of_coreView {s t : State} (h : coreView t = coreView s) (hs : ConsoleInv s) : ConsoleInv t :=
  consoleInv_of_consoleView (consoleView_of_coreView h) hs

/-! ## The arbiter's steps -/

/-- The console source moved, with a snapshot and an elapsed count, where it fits the owner link. -/
theorem consoleInv_moveSource {s : State} {src : SourceState} {k : Table Nat} {n : Nat} (hp : s.phase ≠ .inReset)
    (hr : RangesOk s) (ho : OwnerOk s) (hk : channelTableOk 65535 k) (hn : n ≤ 65535)
    (hs : sourceFits src s.working.sourceMode (isLive s s.arb.owner) = true) :
    ConsoleInv { s with arb := { s.arb with source := src, snapshot := k, elapsed := n } } :=
  consoleInv_of_parts hp ⟨hr.links, hk, hn⟩ ⟨ho.lock, ho.sole, ho.standby⟩ hs

theorem sourceFits_handoverDone {m : SourceMode} {ownerLive : Bool} (h : m = .isolated ∨ ownerLive = true) :
    sourceFits (handoverDone m) m ownerLive = true := by
  cases m <;> simp_all [handoverDone, sourceFits]

/-- A handover trigger brings the console source to fit, whatever it was before (R31). -/
theorem consoleInv_trigger {s : State} {k : Table Nat} (hp : s.phase ≠ .inReset) (hr : RangesOk s) (ho : OwnerOk s)
    (hk : channelTableOk 65535 k) : ConsoleInv (trigger s k) := by
  unfold trigger
  rw [consolePresent_eq ho]
  split
  · rename_i h
    refine consoleInv_moveSource hp hr ho hk (Nat.zero_le _) ?_
    split
    · exact sourceFits_handoverDone h
    · simpa [sourceFits] using h
  · rename_i h
    have hdead : isLive s s.arb.owner = false := by simpa using (not_or.mp h).2
    split
    case h_4 | h_5 | h_6 => exact consoleInv_moveSource hp hr ho hk (Nat.zero_le _) (by simp [sourceFits, hdead])
    all_goals
      rename_i hsrc
      exact consoleInv_of_parts hp hr ho (by simp [hsrc, sourceFits, hdead])

/-- Entry into HOLD fits an owner link that is not LIVE (R33). -/
theorem consoleInv_enterHold {s : State} {k : Table Nat} (hp : s.phase ≠ .inReset) (hr : RangesOk s) (ho : OwnerOk s)
    (hk : channelTableOk 65535 k) (hdead : isLive s s.arb.owner = false) : ConsoleInv (enterHold s k) :=
  consoleInv_moveSource hp hr ho hk (Nat.zero_le _) (by simp [sourceFits, hdead])

@[simp] theorem changeOwner_phase (s : State) (x : Link) (c : Cause) : (changeOwner s x c).phase = s.phase := by
  simp [changeOwner]

@[simp] theorem changeOwner_links (s : State) (x : Link) (c : Cause) : (changeOwner s x c).links = s.links := by
  simp [changeOwner]

@[simp] theorem changeOwner_working (s : State) (x : Link) (c : Cause) : (changeOwner s x c).working = s.working := by
  simp [changeOwner]

@[simp] theorem changeOwner_followStuck (s : State) (x : Link) (c : Cause) :
    (changeOwner s x c).followStuck = s.followStuck := by
  simp [changeOwner]

@[simp] theorem linkOf_changeOwner (s : State) (x y : Link) (c : Cause) : linkOf (changeOwner s x c) y = linkOf s y := by
  simp [linkOf]

@[simp] theorem isLive_changeOwner (s : State) (x y : Link) (c : Cause) : isLive (changeOwner s x c) y = isLive s y := by
  simp [isLive]

theorem rangesOk_changeOwner {s : State} (x : Link) (c : Cause) (h : RangesOk s) : RangesOk (changeOwner s x c) :=
  ⟨by simpa using h.links, by simpa [changeOwner_arb] using h.snapshot, by simpa [changeOwner_arb] using h.elapsed⟩

/-- A change of owner places ownership where the new owner is the preferred link in SOLE, and in the other modes is LIVE if
the standby is. -/
theorem ownerOk_changeOwner {s : State} {x : Link} (c : Cause) (hsole : s.working.sourceMode = .sole → x = s.working.preferred)
    (hlive : s.working.sourceMode ≠ .sole → isLive s (otherLink x) = true → isLive s x = true) :
    OwnerOk (changeOwner s x c) :=
  ⟨by simp [changeOwner_arb], by simpa [changeOwner_arb] using hsole, by simpa [changeOwner_arb] using hlive⟩

theorem consoleInv_trigger_changeOwner {s : State} {x : Link} {k : Table Nat} (c : Cause) (hp : s.phase ≠ .inReset)
    (hr : RangesOk s) (hk : channelTableOk 65535 k) (hsole : s.working.sourceMode = .sole → x = s.working.preferred)
    (hlive : s.working.sourceMode ≠ .sole → isLive s (otherLink x) = true → isLive s x = true) :
    ConsoleInv (trigger (changeOwner s x c) k) :=
  consoleInv_trigger (by simpa using hp) (rangesOk_changeOwner x c hr) (ownerOk_changeOwner c hsole hlive) hk

/-! ## The snapshot (R31, R33) -/

theorem tget_le_of_channelTableOk {top : Nat} {t : Table Nat} (h : channelTableOk top t) (ch : Nat) :
    tget zeroLevel t ch ≤ top := by
  obtain ⟨-, hentries⟩ := h
  induction t with
  | nil => exact Nat.zero_le _
  | cons e t ih =>
    simp only [tget]
    split
    · exact (hentries e (by simp)).2.2
    · exact ih fun f hf => hentries f (by simp [hf])

theorem liveFraction_le (e d : Nat) : liveFraction e d ≤ 4096 := by
  unfold liveFraction
  split
  · exact le_refl _
  · rename_i h
    exact Nat.div_le_of_le_mul (by nlinarith [not_or.mp h])

/-- A weighted level lies between its start and its target (R32). -/
theorem levelToward_le {start target w top : Nat} (hs : start ≤ top) (ht : target ≤ top) (hw : w ≤ 4096) :
    levelToward start target w ≤ top := by
  unfold levelToward
  split
  · have : (target - start) * w / 4096 ≤ target - start := Nat.div_le_of_le_mul (by nlinarith)
    omega
  · omega

theorem bufferLevel_le {s : State} (h : RangesOk s) (x : Link) (ch : Nat) : bufferLevel s x ch ≤ 255 := by
  obtain ⟨-, -, -, hbuffer⟩ := h.links x
  exact tget_le_of_channelTableOk hbuffer ch

theorem modeTarget_le {s : State} (h : RangesOk s) (ch : Nat) : modeTarget s ch ≤ 65535 := by
  have hb := fun x => bufferLevel_le h x ch
  unfold modeTarget widen
  split
  · omega
  · have := hb s.arb.owner; omega
  · have := hb s.arb.owner; omega
  · have := hb .a; have := hb .b; split <;> split <;> omega

/-- The console contribution is a level (R28, R29). -/
theorem contribution_le {s : State} (h : RangesOk s) (ch : Nat) : contribution s ch ≤ 65535 := by
  have hsnap : snapshotLevel s ch ≤ 65535 := tget_le_of_channelTableOk h.snapshot ch
  have htarget := modeTarget_le h ch
  unfold contribution
  split
  · exact htarget
  · exact levelToward_le hsnap htarget (liveFraction_le _ _)
  · exact hsnap
  · exact levelToward_le hsnap (Nat.zero_le _) (liveFraction_le _ _)
  all_goals exact Nat.zero_le _

theorem snapshotNow_ok {s : State} (h : RangesOk s) : channelTableOk 65535 (snapshotNow s) :=
  ⟨tofFn_wf _ _ _ _, fun e he => by
    obtain ⟨hlo, hhi, hv⟩ := mem_tofFn _ he
    exact ⟨hlo, by omega, hv ▸ contribution_le h e.1⟩⟩

/-! ## A link receiver replaced -/

@[simp] theorem isLive_setLink_self (s : State) (x : Link) (l : LinkRx) : isLive (setLink s x l) x = (l.state == .live) := by
  simp [isLive]

theorem isLive_setLink_of_ne (s : State) {x y : Link} (l : LinkRx) (h : y ≠ x) : isLive (setLink s x l) y = isLive s y := by
  simp [isLive, linkOf_setLink_of_ne s l h]

theorem rangesOk_setLink {s : State} {x : Link} {l : LinkRx} (h : RangesOk s) (hl : linkOk l) : RangesOk (setLink s x l) :=
  ⟨fun y => by
    by_cases hy : y = x
    · subst hy; simpa using hl
    · rw [linkOf_setLink_of_ne s l hy]; exact h.links y, h.snapshot, h.elapsed⟩

/-- A link receiver replaced by one that is LIVE where the other was moves no link in or out of LIVE. -/
theorem isLive_setLink_of_state {s : State} {x : Link} {l : LinkRx} (hl : l.state = .live ↔ (linkOf s x).state = .live)
    (y : Link) : isLive (setLink s x l) y = isLive s y := by
  by_cases hy : y = x
  · subst hy
    rw [Bool.eq_iff_iff]
    simpa [isLive] using hl
  · exact isLive_setLink_of_ne s l hy

/-- A link receiver replaced by one that is LIVE where the other was keeps the invariant, out of full reset. -/
theorem consoleInv_setLink {s : State} {x : Link} {l : LinkRx} (h : ConsoleInv s) (hp : s.phase ≠ .inReset) (hl : linkOk l)
    (hstate : l.state = .live ↔ (linkOf s x).state = .live) : ConsoleInv (setLink s x l) := by
  have ho := ownerOk_of_consoleInv h hp
  have hlive := isLive_setLink_of_state hstate
  refine consoleInv_of_parts hp (rangesOk_setLink (rangesOk_of_consoleInv h) hl) ⟨?_, ho.sole, ?_⟩ ?_
  · simpa [hlive] using ho.lock
  · simpa [hlive] using ho.standby
  · simpa [hlive] using sourceFits_of_consoleInv h hp

end Sys2Proof.Machine
end

section
/-! SUPPORT. The link receivers and the control arbiter keep ConsoleInv: bytes, frames, the loss timer, the notices of a link's
change, the arbiter's step expiry and its requests. -/

namespace Sys2Proof.Machine

/-! ## What the bytes and frames of a link keep -/

theorem bump_le (n : Nat) : bump n ≤ 65535 := Nat.min_le_left _ _

/-- A frame discarded keeps the invariant (R3 to R6, R13). -/
theorem consoleInv_discard {s : State} {x : Link} {rx : Reception} {count : LinkCounters → LinkCounters} (h : ConsoleInv s)
    (hp : s.phase ≠ .inReset) (hrx : receptionOk rx = true) (hcount : ∀ c, countersOk c → countersOk (count c)) :
    ConsoleInv (discard s x rx count) := by
  obtain ⟨⟨hdown, hacq, hlive⟩, -, hcounters, hbuffer⟩ := (rangesOk_of_consoleInv h).links x
  refine consoleInv_setLink h hp ⟨⟨?_, ?_, ?_⟩, hrx, hcount _ hcounters, hbuffer⟩ Iff.rfl
  · intro hs; simpa [show (linkOf s x).state = .down from hs] using hdown hs
  · intro hs; simpa [show (linkOf s x).state = .acquiring from hs] using (hacq hs).2
  · intro hs; simpa [show (linkOf s x).state = .live from hs] using hlive hs

/-- A reception state stored keeps the invariant. -/
theorem consoleInv_setRx {s : State} {x : Link} {rx : Reception} (h : ConsoleInv s) (hp : s.phase ≠ .inReset)
    (hrx : receptionOk rx = true) : ConsoleInv (setLink s x { linkOf s x with rx := rx }) := by
  obtain ⟨hstate, -, hcounters, hbuffer⟩ := (rangesOk_of_consoleInv h).links x
  exact consoleInv_setLink h hp ⟨hstate, hrx, hcounters, hbuffer⟩ Iff.rfl

/-- Counters stored keep the invariant. -/
theorem consoleInv_setCounters {s : State} {x : Link} {c : LinkCounters} (h : ConsoleInv s) (hp : s.phase ≠ .inReset)
    (hc : countersOk c) : ConsoleInv (setLink s x { linkOf s x with counters := c }) := by
  obtain ⟨hstate, hrx, -, hbuffer⟩ := (rangesOk_of_consoleInv h).links x
  exact consoleInv_setLink h hp ⟨hstate, hrx, hc, hbuffer⟩ Iff.rfl

theorem consoleInv_countDropped {s : State} (x : Link) (h : ConsoleInv s) (hp : s.phase ≠ .inReset) :
    ConsoleInv (countDropped s x) := by
  obtain ⟨-, -, ⟨h1, h2, h3, h4, h5, h6, h7, h8, -⟩, -⟩ := (rangesOk_of_consoleInv h).links x
  exact consoleInv_setCounters h hp ⟨h1, h2, h3, h4, h5, h6, h7, h8, bump_le _⟩

/-! ## Notices to the arbiter (R25, R26, R27, R31) -/

/-- What a state in which link `x` has just changed shares with the state before the change. -/
structure LinkChanged (s v : State) (x : Link) : Prop where
  phase   : v.phase = s.phase
  arb     : v.arb = s.arb
  working : v.working = s.working
  other   : ∀ y, y ≠ x → isLive v y = isLive s y
  ranges  : RangesOk v

theorem linkChanged_offerReport {s : State} {x : Link} {l : LinkRx} (k : ReportKind) (h : RangesOk s) (hl : linkOk l) :
    LinkChanged s (offerReport (setLink s x l) k) x := by
  have hview := consoleView_of_coreView (coreView_offerReport (setLink s x l) k)
  exact ⟨by simp, by simp, by simp, fun y hy => (isLive_of_consoleView hview y).trans (isLive_setLink_of_ne s l hy),
    rangesOk_of_consoleView hview (rangesOk_setLink h hl)⟩

theorem waits_or (src : SourceState) :
    (src = .hold ∨ src = .lossFade ∨ src = .dark) ∨ (src = .normal ∨ src = .handover ∨ src = .off) := by
  cases src <;> simp

/-- R26, as conditions on the state. -/
theorem returns_iff {s : State} {x : Link} : returns s x = true ↔
    (s.working.sourceMode ≠ .sole ∨ x = s.working.preferred) ∧
      ((s.arb.source = .hold ∨ s.arb.source = .lossFade ∨ s.arb.source = .dark) ∨ isLive s s.arb.owner = false) := by
  simp [returns, or_assoc]

/-- R27, as conditions on the state. -/
theorem reclaims_iff {s : State} {x : Link} : reclaims s x = true ↔
    s.working.reclaim = true ∧ s.working.sourceMode ≠ .sole ∧ x = s.working.preferred ∧ s.arb.owner ≠ x ∧
      s.arb.lock = false := by
  simp only [reclaims, Bool.and_eq_true, beq_iff_eq, bne_iff_ne, Bool.not_eq_true']
  tauto

/-- A return gives ownership to the link that has become LIVE, or leaves it there, and makes a trigger (R26). -/
theorem consoleInv_return {v : State} {x : Link} {k : Table Nat} (hp : v.phase ≠ .inReset) (hr : RangesOk v)
    (hk : channelTableOk 65535 k) (hlive : isLive v x = true)
    (hsole : v.working.sourceMode = .sole → x = v.working.preferred) : ConsoleInv (trigger (returnTo v x) k) := by
  unfold returnTo
  split
  · rename_i howner
    have hview := consoleView_of_coreView (coreView_offerReport v (.handover x x .ret))
    have ho : OwnerOk v := ⟨fun _ => by rw [howner]; exact hlive, fun hm => howner.trans (hsole hm),
      fun _ _ => by rw [howner]; exact hlive⟩
    exact consoleInv_trigger (by simpa using hp) (rangesOk_of_consoleView hview hr) (ownerOk_of_consoleView hview ho) hk
  · exact consoleInv_trigger_changeOwner _ hp hr hk hsole fun _ _ => hlive

/-- A link's change into LIVE, with what the arbiter does of it. -/
theorem consoleInv_noticeLive {s v : State} {x : Link} {k : Table Nat} (h : ConsoleInv s) (hp : s.phase ≠ .inReset)
    (hv : LinkChanged s v x) (hlive : isLive v x = true) (hk : channelTableOk 65535 k) : ConsoleInv (noticeLive v x k) := by
  have ho := ownerOk_of_consoleInv h hp
  have hsrc := sourceFits_of_consoleInv h hp
  have hpv : v.phase ≠ .inReset := hv.phase ▸ hp
  have grows (y : Link) : isLive s y = true → isLive v y = true := fun hy => by
    by_cases hyx : y = x
    · rw [hyx]; exact hlive
    · rw [hv.other y hyx]; exact hy
  unfold noticeLive
  rw [if_neg hpv]
  split
  · rename_i hret
    refine consoleInv_return hpv hv.ranges hk hlive fun hm => ?_
    exact (returns_iff.mp hret).1.resolve_left (not_not_intro hm)
  · rename_i hret
    have stays : (v.working.sourceMode = .sole ∧ x ≠ v.working.preferred) ∨
        ((v.arb.source = .normal ∨ v.arb.source = .handover ∨ v.arb.source = .off) ∧ isLive v v.arb.owner = true) := by
      rcases not_and_or.mp (mt returns_iff.mpr hret) with hmode | hsource
      · exact .inl (by simpa using hmode)
      · obtain ⟨hw, howner⟩ := not_or.mp hsource
        exact .inr ⟨(waits_or v.arb.source).resolve_left hw, by simpa using howner⟩
    have ho' : OwnerOk v := by
      refine ⟨fun hlock => grows _ ?_, ?_, fun hm _ => ?_⟩
      · rw [hv.arb] at hlock ⊢; exact ho.lock hlock
      · rw [hv.arb, hv.working]; exact ho.sole
      · rcases stays with ⟨hsole, -⟩ | ⟨-, howner⟩
        · exact absurd hsole hm
        · exact howner
    split
    · rename_i hrec
      obtain ⟨-, hm, -⟩ := reclaims_iff.mp hrec
      exact consoleInv_trigger_changeOwner _ hpv hv.ranges hk (fun he => absurd he hm) fun _ _ => hlive
    · split
      · exact consoleInv_trigger hpv hv.ranges ho' hk
      · refine consoleInv_of_parts hpv hv.ranges ho' ?_
        rw [← hv.arb, ← hv.working] at hsrc
        rcases stays with ⟨hsole, hx⟩ | ⟨hwaits, howner⟩
        · rwa [hv.other _ fun he => hx (he ▸ ho'.sole hsole)]
        · rw [howner]
          rcases hwaits with hw | hw | hw <;> simp_all [sourceFits]

/-- A link's change into DOWN, with what the arbiter does of it. -/
theorem consoleInv_noticeDown {s v : State} {x : Link} {k : Table Nat} (h : ConsoleInv s) (hp : s.phase ≠ .inReset)
    (hv : LinkChanged s v x) (hdead : isLive v x = false) (hk : channelTableOk 65535 k) : ConsoleInv (noticeDown v x k) := by
  have ho := ownerOk_of_consoleInv h hp
  have hsrc := sourceFits_of_consoleInv h hp
  have hpv : v.phase ≠ .inReset := hv.phase ▸ hp
  unfold noticeDown
  rw [if_neg hpv]
  split
  · rename_i howner
    dsimp only
    split
    · rename_i hother
      obtain ⟨hm, hlive⟩ := hother
      refine consoleInv_trigger_changeOwner _ hpv ⟨hv.ranges.links, hv.ranges.snapshot, hv.ranges.elapsed⟩ hk
        (fun he => absurd he hm) fun _ _ => hlive
    · rename_i hother
      have ho' : OwnerOk { v with arb := { v.arb with lock := false } } := by
        refine ⟨by simp, ?_, fun hm hlive => absurd ⟨hm, ?_⟩ hother⟩
        · rw [hv.arb, hv.working]; exact ho.sole
        · rw [← howner]; exact hlive
      rw [← howner] at hdead
      exact consoleInv_enterHold hpv ⟨hv.ranges.links, hv.ranges.snapshot, hv.ranges.elapsed⟩ ho' hk hdead
  · rename_i howner
    have hstays : isLive v v.arb.owner = isLive s s.arb.owner := by rw [hv.other _ howner, hv.arb]
    have ho' : OwnerOk v := by
      refine ⟨?_, ?_, fun _ hlive => ?_⟩
      · rw [hstays, hv.arb]; exact ho.lock
      · rw [hv.arb, hv.working]; exact ho.sole
      · rw [← eq_otherLink_of_ne (Ne.symm howner), hdead] at hlive
        exact absurd hlive (by simp)
    split
    · exact consoleInv_trigger hpv hv.ranges ho' hk
    · refine consoleInv_of_parts hpv hv.ranges ho' ?_
      rwa [hstays, hv.arb, hv.working]

/-! ## Level frames (R7, R13, R16, R24) -/

/-- Levels written at channels of the buffer keep its canonical form and its range. -/
theorem channelTableOk_writeLevels {buf : Table Nat} {b : Nat} {levels : List Byte} (h : channelTableOk 255 buf) (hb : 1 ≤ b)
    (hend : b + levels.length ≤ 513) : channelTableOk 255 (writeLevels buf b levels) := by
  induction levels generalizing buf b with
  | nil => exact h
  | cons v vs ih =>
    rw [List.length_cons] at hend
    refine ih ⟨tset_wf _ _ _ h.1, fun e he => ?_⟩ (by omega) (by omega)
    rcases mem_tset _ he with rfl | he
    · have := v.isLt
      exact ⟨hb, by omega, by omega⟩
    · exact h.2 e he

theorem consoleInv_clearHoldoff {s : State} (x : Link) (h : ConsoleInv s) (hp : s.phase ≠ .inReset) :
    ConsoleInv (clearHoldoff s x) := by
  have ho := ownerOk_of_consoleInv h hp
  have hr := rangesOk_of_consoleInv h
  have hsrc := sourceFits_of_consoleInv h hp
  unfold clearHoldoff
  split
  · exact consoleInv_of_parts hp ⟨hr.links, hr.snapshot, hr.elapsed⟩ ⟨ho.lock, ho.sole, ho.standby⟩ hsrc
  · exact h

@[simp] theorem clearHoldoff_phase (s : State) (x : Link) : (clearHoldoff s x).phase = s.phase := by
  unfold clearHoldoff; split <;> rfl

theorem consoleInv_acquire {s : State} (x : Link) (h : ConsoleInv s) (hp : s.phase ≠ .inReset) : ConsoleInv (acquire s x) := by
  have hr := rangesOk_of_consoleInv h
  obtain ⟨⟨-, hacq, hlive⟩, hrx, hcounters, hbuffer⟩ := hr.links x
  unfold acquire
  dsimp only
  split
  case h_1 hs =>
    exact consoleInv_setLink h hp ⟨by simp [linkStateOk], hrx, hcounters, hbuffer⟩ (by simp [hs])
  case h_2 hs =>
    split
    · rename_i hcount
      exact consoleInv_setLink h hp ⟨by simp [linkStateOk, hs]; omega, hrx, hcounters, hbuffer⟩ Iff.rfl
    · have hl : linkOk { linkOf s x with state := .live, acq := 0, timer := some 0 } :=
        ⟨by simp [linkStateOk], hrx, hcounters, hbuffer⟩
      exact consoleInv_noticeLive h hp (linkChanged_offerReport _ hr hl) (by simp)
        (snapshotNow_ok hr)
  case h_3 hs =>
    exact consoleInv_setLink h hp ⟨by simp [linkStateOk, hs, (hlive hs).1], hrx, hcounters, hbuffer⟩ Iff.rfl

theorem consoleInv_acceptLevels {s : State} {x : Link} {b : Nat} {levels : List Byte} (h : ConsoleInv s)
    (hp : s.phase ≠ .inReset) (hb : 1 ≤ b) (hend : b + levels.length ≤ 513) : ConsoleInv (acceptLevels s x b levels) := by
  obtain ⟨hstate, hrx, ⟨-, h2, h3, h4, h5, h6, h7, h8, h9⟩, hbuffer⟩ := (rangesOk_of_consoleInv h).links x
  refine consoleInv_acquire x (consoleInv_clearHoldoff x (consoleInv_setLink h hp ?_ Iff.rfl) hp) (by simpa using hp)
  exact ⟨hstate, hrx, ⟨bump_le _, h2, h3, h4, h5, h6, h7, h8, h9⟩, channelTableOk_writeLevels hbuffer hb hend⟩

/-! ## The loss timer (R14, R15) -/

theorem consoleInv_lossTick {s : State} (x : Link) (h : ConsoleInv s) : ConsoleInv (lossTick s x) := by
  unfold lossTick
  dsimp only
  split
  · exact h
  · rename_i n hn
    have hp : s.phase ≠ .inReset := fun hreset => by
      rw [links_of_inReset h hreset x] at hn
      simp [LinkRx.reset] at hn
    have hr := rangesOk_of_consoleInv h
    obtain ⟨⟨hdown, hacq, hlive⟩, hrx, hcounters, hbuffer⟩ := hr.links x
    split
    · have hl : linkOk { linkOf s x with state := .down, acq := 0, timer := none } :=
        ⟨by simp [linkStateOk], hrx, hcounters, hbuffer⟩
      exact consoleInv_noticeDown h hp (linkChanged_offerReport _ hr hl) (by simp)
        (snapshotNow_ok hr)
    · have hl : linkStateOk { linkOf s x with timer := some (n + 1) } :=
        ⟨fun hs => absurd ((hdown hs).2.symm.trans hn) (by simp), fun hs => ⟨(hacq hs).1, by simp⟩,
          fun hs => ⟨(hlive hs).1, by simp⟩⟩
      exact consoleInv_setLink h hp ⟨hl, hrx, hcounters, hbuffer⟩ Iff.rfl

/-! ## Idle time (R3, R4) -/

theorem consoleInv_gapExceeded {s : State} (x : Link) (h : ConsoleInv s) : ConsoleInv (gapExceeded s x) := by
  have hp (hrx : (linkOf s x).rx ≠ .hunt) : s.phase ≠ .inReset := fun hreset =>
    hrx (by rw [links_of_inReset h hreset x]; rfl)
  have gap (hrx : (linkOf s x).rx ≠ .hunt) : ConsoleInv (discard s x .hunt countGap) :=
    consoleInv_discard h (hp hrx) rfl fun c ⟨h1, h2, h3, h4, _, h6, h7, h8, h9⟩ =>
      ⟨h1, h2, h3, h4, bump_le _, h6, h7, h8, h9⟩
  unfold gapExceeded
  split
  case h_1 hrx => exact gap (by simp [hrx])
  case h_2 hrx => exact gap (by simp [hrx])
  all_goals exact h

theorem consoleInv_drainEnds {s : State} (x : Link) (h : ConsoleInv s) : ConsoleInv (drainEnds s x) := by
  unfold drainEnds
  split
  case h_1 hrx =>
    refine consoleInv_setRx h (fun hreset => ?_) rfl
    rw [links_of_inReset h hreset x] at hrx
    exact absurd hrx (by decide)
  all_goals exact h

/-! ## The arbiter's step expiry (R29, R32 to R34) -/

theorem consoleInv_arbiterTick {s : State} (h : ConsoleInv s) : ConsoleInv (arbiterTick s) := by
  unfold arbiterTick
  split
  · exact h
  · rename_i hp
    have hr := rangesOk_of_consoleInv h
    have ho := ownerOk_of_consoleInv h hp
    have hsrc := sourceFits_of_consoleInv h hp
    have moved {src : SourceState} {n : Nat} (hn : n ≤ 65535)
        (hs : sourceFits src s.working.sourceMode (isLive s s.arb.owner) = true) :=
      consoleInv_moveSource (s := s) hp hr ho hr.snapshot hn hs
    have hbump := bump_le s.arb.elapsed
    dsimp only
    split
    case h_1 hs =>
      rw [hs] at hsrc
      split
      · exact moved hbump (sourceFits_handoverDone (by simpa [sourceFits] using hsrc))
      · exact moved hbump (by rw [hs]; exact hsrc)
    case h_2 hs =>
      rw [hs] at hsrc
      split
      · exact moved (Nat.zero_le _) (by split <;> exact hsrc)
      · exact moved hbump (by rw [hs]; exact hsrc)
    case h_3 hs =>
      rw [hs] at hsrc
      split
      · exact moved hbump hsrc
      · exact moved hbump (by rw [hs]; exact hsrc)
    all_goals exact h

/-! ## TAKE, LOCK, UNLOCK (R22, R23) -/

theorem consoleInv_takeControl {s : State} (x : Link) (h : ConsoleInv s) (hp : s.phase ≠ .inReset) :
    ConsoleInv (takeControl s x).1 := by
  have hr := rangesOk_of_consoleInv h
  unfold takeControl
  split
  · exact h
  · rename_i hm
    iterate 3 (split; · exact h)
    split
    · exact h
    · rename_i hlive
      exact consoleInv_trigger_changeOwner _ hp hr (snapshotNow_ok hr) (fun he => absurd he hm) fun _ _ => by
        simpa using hlive

/-- The lock set or cleared, where it is set only while the owner link is LIVE. -/
theorem consoleInv_setLock {s : State} {on : Bool} (h : ConsoleInv s) (hp : s.phase ≠ .inReset)
    (hon : on = true → isLive s s.arb.owner = true) : ConsoleInv { s with arb := { s.arb with lock := on } } := by
  have ho := ownerOk_of_consoleInv h hp
  have hr := rangesOk_of_consoleInv h
  have hsrc := sourceFits_of_consoleInv h hp
  exact consoleInv_of_parts hp ⟨hr.links, hr.snapshot, hr.elapsed⟩ ⟨hon, ho.sole, ho.standby⟩ hsrc

theorem consoleInv_lockControl {s : State} (h : ConsoleInv s) (hp : s.phase ≠ .inReset) : ConsoleInv (lockControl s).1 := by
  unfold lockControl
  split
  · rename_i hlive; exact consoleInv_setLock h hp fun _ => hlive
  · exact h

/-! ## Initialisation (R37) -/

/-- The arbiter's initialisation with no link LIVE. -/
theorem arbiterInit_of_no_live {s : State} (h : ∀ x, isLive s x = false) :
    arbiterInit s = { s with arb :=
      { owner := s.working.preferred, lock := false, holdoff := false,
        source := if s.working.sourceMode = .isolated then .off else .hold, snapshot := [], elapsed := 0 } } := by
  have hdead (a : Arbiter) (x : Link) : isLive { s with arb := a } x = false := h x
  simp [arbiterInit, hdead]

theorem consoleInv_arbiterInit {s : State} (hp : s.phase ≠ .inReset) (hr : RangesOk s) (h : ∀ x, isLive s x = false) :
    ConsoleInv (arbiterInit s) := by
  rw [arbiterInit_of_no_live h]
  have hdead (a : Arbiter) (x : Link) : isLive { s with arb := a } x = false := h x
  refine consoleInv_of_parts hp ⟨hr.links, ⟨⟨List.Pairwise.nil, by simp⟩, by simp⟩, Nat.zero_le _⟩
    ⟨by simp, fun _ => rfl, by simp [hdead]⟩ ?_
  simp only [hdead]
  split
  · rename_i hm; simp [hm, sourceFits]
  · simp [sourceFits]

end Sys2Proof.Machine
end

section
/-! SUPPORT. The words of a WRITE and the requests: what they keep of the links and of the arbiter, and the arbiter's act on a
WRITE (R19, R35, R36). -/

namespace Sys2Proof.Machine

/-! ## One word of a WRITE -/

/-- What a WRITE's words keep before the arbiter acts on them: they clear counters and store settings, and move no link, no
ownership and no console source. -/
structure WordKeeps (s t : State) : Prop where
  phase       : t.phase = s.phase
  arb         : t.arb = s.arb
  followStuck : t.followStuck = s.followStuck
  live        : ∀ x, isLive t x = isLive s x
  ranges      : RangesOk s → RangesOk t

theorem WordKeeps.trans {s t u : State} (h : WordKeeps s t) (h' : WordKeeps t u) : WordKeeps s u :=
  ⟨h'.phase.trans h.phase, h'.arb.trans h.arb, h'.followStuck.trans h.followStuck,
    fun x => (h'.live x).trans (h.live x), fun hr => h'.ranges (h.ranges hr)⟩

theorem wordKeeps_of_coreView {s t : State} (h : coreView t = coreView s) : WordKeeps s t := by
  have hc := consoleView_of_coreView h
  obtain ⟨hp, -, ha, -, hf⟩ := coreView_eq_iff.mp h
  exact ⟨hp, ha, hf, isLive_of_consoleView hc, rangesOk_of_consoleView hc⟩

/-- A setting stored in the working copies moves nothing else. -/
theorem wordKeeps_withWorking (s : State) (w : Working) : WordKeeps s { s with working := w } :=
  ⟨rfl, rfl, rfl, fun _ => rfl, fun h => ⟨h.links, h.snapshot, h.elapsed⟩⟩

theorem clearCounter_ok {c : LinkCounters} (i : Nat) (h : countersOk c) : countersOk (clearCounter c i) := by
  obtain ⟨h1, h2, h3, h4, h5, h6, h7, h8, h9⟩ := h
  unfold clearCounter
  split <;> simp only [countersOk, Nat.zero_le, and_true, *]

/-- A counter of a link cleared moves nothing else. -/
theorem wordKeeps_clearCounter (s : State) (x : Link) (i : Nat) :
    WordKeeps s (setLink s x { linkOf s x with counters := clearCounter (linkOf s x).counters i }) :=
  ⟨rfl, rfl, rfl, isLive_setLink_of_state Iff.rfl, fun h => by
    obtain ⟨hstate, hrx, hcounters, hbuffer⟩ := h.links x
    exact rangesOk_setLink h ⟨hstate, hrx, clearCounter_ok i hcounters, hbuffer⟩⟩

/-- The state that the offer of one word leaves. -/
def WordResult.state : WordResult → State
  | .taken s => s
  | .refused _ s => s

theorem wordKeeps_takeGlobal (s : State) (i : Nat) (v : Word) : WordKeeps s (takeGlobal s i v) := by
  have loaded : WordKeeps s { rewrite s (globalAddr i) v with working := loadSetting s.working i v } :=
    (wordKeeps_of_coreView (coreView_rewrite s _ v)).trans (wordKeeps_withWorking (rewrite s (globalAddr i) v) _)
  unfold takeGlobal
  dsimp only
  split
  · exact loaded.trans (wordKeeps_of_coreView (coreView_setLine _ _ _))
  · exact loaded

theorem wordKeeps_writeStatus (s : State) (i : Nat) : WordKeeps s (writeStatus s i).state := by
  unfold writeStatus
  split
  · exact wordKeeps_clearCounter s .a _
  · split
    · exact wordKeeps_clearCounter s .b _
    · split <;> exact wordKeeps_of_coreView rfl

theorem coreView_writePlayback (s : State) (p : PlaybackNo) (i : Nat) (v : Word) :
    coreView (writePlayback s p i v).state = coreView s := by
  unfold writePlayback
  split
  case h_1 =>
    unfold writeBoundStack
    iterate 3 (split; rfl)
    rfl
  all_goals rfl

theorem coreView_takeActive (s : State) (ws : List (Nat × Word)) : coreView (takeActive s ws) = coreView s := by
  unfold takeActive
  dsimp only
  split
  · rfl
  · exact (coreView_clearVerified _ _).trans (coreView_rewriteAll _ _)

theorem coreView_checkActive (s : State) (off : Nat) (v : Word) : coreView (checkActive s off v).state = coreView s := by
  unfold checkActive
  split
  · rfl
  · exact coreView_takeActive s _

theorem coreView_writeActive (s : State) (off : Nat) (v : Word) : coreView (writeActive s off v).state = coreView s := by
  have checked := coreView_checkActive s off v
  unfold writeActive
  split
  · rfl
  · split
    · split
      · exact coreView_offerFault s _
      · rfl
      · exact checked
    · exact checked

theorem coreView_writeStaged (s : State) (b : Bank) (off : Nat) (v : Word) :
    coreView (writeStaged s b off v).state = coreView s := by
  unfold writeStaged; split <;> rfl

theorem wordKeeps_writeWord (s : State) (a : Nat) (v : Word) : WordKeeps s (writeWord s a v).state := by
  unfold writeWord
  split
  case h_2 =>
    split
    · exact wordKeeps_of_coreView rfl
    · exact wordKeeps_takeGlobal s _ _
  case h_3 => exact wordKeeps_writeStatus s _
  case h_4 => exact wordKeeps_of_coreView (coreView_writePlayback s _ _ v)
  case h_7 => split <;> exact wordKeeps_of_coreView rfl
  case h_8 =>
    split
    · exact wordKeeps_of_coreView (coreView_writeActive s _ v)
    · exact wordKeeps_of_coreView (coreView_writeStaged s _ _ v)
  all_goals exact wordKeeps_of_coreView rfl

/-! ## The preferred link's word -/

theorem placeOf_eq_global {a i : Nat} (h : placeOf a = .global i) : a = i := by
  unfold placeOf at h
  repeat (split at h; · cases h <;> rfl)
  cases h

/-- A mapped address is one of the areas, the last of which ends below 0xFFFFFF. -/
theorem lt_of_mapped {a : Nat} (h : placeOf a ≠ .unmapped) : a < 0xFFFFFF := by
  by_contra hlt
  refine h ?_
  unfold placeOf
  iterate 2 rw [if_neg (by omega)]
  rw [dif_neg (by omega)]
  iterate 5 rw [if_neg (by omega)]

theorem lt_of_taken {s t : State} {a : Nat} {v : Word} (h : writeWord s a v = .taken t) : a < 0xFFFFFF := by
  refine lt_of_mapped fun hp => ?_
  simp [writeWord, hp] at h

theorem loadSetting_preferred {w : Working} {i : Nat} {v : Word} (h : i ≠ 1) :
    (loadSetting w i v).preferred = w.preferred := by
  unfold loadSetting
  split
  case h_2 => exact absurd rfl h
  case h_13 => split <;> rfl
  all_goals rfl

@[simp] theorem takeGlobal_working (s : State) (i : Nat) (v : Word) :
    (takeGlobal s i v).working = loadSetting s.working i v := by
  unfold takeGlobal
  dsimp only
  split <;> rfl

theorem working_of_coreView {s t : State} (h : coreView t = coreView s) : t.working = s.working :=
  congrArg CoreView.working h

theorem writeStatus_working (s : State) (i : Nat) : (writeStatus s i).state.working = s.working := by
  unfold writeStatus
  iterate 3 (split; rfl)
  rfl

/-- Only a word at address 1 changes the working copy of the preferred link. -/
theorem writeWord_preferred {s : State} {a : Nat} {v : Word} (h : a ≠ 1) :
    (writeWord s a v).state.working.preferred = s.working.preferred := by
  unfold writeWord
  split
  case h_2 i hi =>
    split
    · rfl
    · simp only [WordResult.state, takeGlobal_working]
      exact loadSetting_preferred (placeOf_eq_global hi ▸ h)
  case h_3 => rw [writeStatus_working]
  case h_4 => rw [working_of_coreView (coreView_writePlayback s _ _ v)]
  case h_7 => split <;> rfl
  case h_8 =>
    split
    · rw [working_of_coreView (coreView_writeActive s _ v)]
    · rw [working_of_coreView (coreView_writeStaged s _ _ v)]
  all_goals rfl

/-! ## The words of a WRITE -/

theorem wordKeeps_writeWords (s : State) (a : Nat) (ws : List Word) : WordKeeps s (writeWords s a ws).1 := by
  induction ws generalizing s a with
  | nil => exact wordKeeps_of_coreView rfl
  | cons w ws ih =>
    have hword := wordKeeps_writeWord s a w
    simp only [writeWords]
    split
    · rename_i hw; rw [hw] at hword; exact hword
    · rename_i hw; rw [hw] at hword; exact hword.trans (ih _ _)

/-- A WRITE that changes the working copy of the preferred link has taken the word at address 1. -/
theorem writeWords_preferred {s : State} {a : Nat} {ws : List Word}
    (h : (writeWords s a ws).1.working.preferred ≠ s.working.preferred) : a ≤ 1 ∧ 1 < a + (writeWords s a ws).2.1 := by
  induction ws generalizing s a with
  | nil => exact absurd rfl h
  | cons w ws ih =>
    have hpref := writeWord_preferred (s := s) (a := a) (v := w)
    simp only [writeWords] at h ⊢
    split
    · rename_i hw
      rw [hw] at h hpref
      have ha : a = 1 := by by_contra hne; exact h (hpref hne)
      simp [writeWord, ha, placeOf, globalCheck] at hw
    · rename_i t hw
      have hlt := lt_of_taken hw
      rw [hw] at h hpref
      by_cases ha : a = 1
      · subst ha; simp
      · have := ih (s := t) (a := (a + 1) % 0x1000000) fun he => h (he.trans (hpref ha))
        simp only
        omega

/-! ## The arbiter's act on a WRITE (R35, R36) -/

@[simp] theorem placeOwner_phase (s : State) : (placeOwner s).phase = s.phase := by
  unfold placeOwner; split <;> split <;> simp

@[simp] theorem placeOwner_working (s : State) : (placeOwner s).working = s.working := by
  unfold placeOwner; split <;> split <;> simp

theorem rangesOk_placeOwner {s : State} (h : RangesOk s) : RangesOk (placeOwner s) := by
  have placed (c : Prop) [Decidable c] (x : Link) (cause : Cause) :
      RangesOk (if c then changeOwner s x cause else s) := by
    split
    · exact rangesOk_changeOwner x cause h
    · exact h
  unfold placeOwner
  split
  case h_1 =>
    split
    · exact h
    · exact rangesOk_changeOwner _ _ h
  all_goals exact placed _ _ _

/-- A new source mode places ownership so that the arbiter's rules hold again (R35). -/
theorem ownerOk_placeOwner {s : State} (hlock : s.arb.lock = true → isLive s s.arb.owner = true) : OwnerOk (placeOwner s) := by
  have placed (hm : s.working.sourceMode ≠ .sole) : OwnerOk
      (if !isLive s s.arb.owner && isLive s (otherLink s.arb.owner) then changeOwner s (otherLink s.arb.owner) .ret else s) := by
    split
    · rename_i h
      exact ownerOk_changeOwner _ (fun he => absurd he hm) fun _ _ => by simp_all
    · exact ⟨hlock, fun he => absurd he hm, fun _ _ => by simp_all⟩
  unfold placeOwner
  split
  case h_1 hm =>
    split
    · rename_i ho; exact ⟨hlock, fun _ => ho, fun hn => absurd hm hn⟩
    · exact ownerOk_changeOwner _ (fun _ => rfl) fun hn => absurd hm hn
  all_goals
    rename_i hm
    exact placed (by simp [hm])

/-- The arbiter's act on the words of a WRITE brings back the invariant that the words alone may break. -/
theorem consoleInv_arbiterWritten {s t : State} {newPreferred : Bool} {k : Table Nat} (h : ConsoleInv s)
    (hp : s.phase ≠ .inReset) (ht : WordKeeps s t)
    (hpref : newPreferred = false → t.working.preferred = s.working.preferred) (hk : channelTableOk 65535 k) :
    ConsoleInv (arbiterWritten t (t.working.sourceMode != s.working.sourceMode) newPreferred k) := by
  have hr := ht.ranges (rangesOk_of_consoleInv h)
  have ho := ownerOk_of_consoleInv h hp
  have hsrc := sourceFits_of_consoleInv h hp
  have hpt : t.phase ≠ .inReset := ht.phase ▸ hp
  have hlock : t.arb.lock = true → isLive t t.arb.owner = true := by
    rw [ht.live, ht.arb]; exact ho.lock
  unfold arbiterWritten
  by_cases hmode : t.working.sourceMode = s.working.sourceMode
  · simp only [hmode, bne_self_eq_false, Bool.false_eq_true, if_false, Bool.false_or]
    split
    · rename_i hmoves
      simp only [preferredMoves, Bool.and_eq_true, beq_iff_eq] at hmoves
      obtain ⟨-, hsole, -⟩ := hmoves
      exact consoleInv_trigger_changeOwner _ hpt hr hk (fun _ => rfl) fun hn => absurd hsole hn
    · rename_i hmoves
      have hsole : t.working.sourceMode = .sole → t.arb.owner = t.working.preferred := fun hm => by
        cases hnew : newPreferred with
        | false => rw [ht.arb, hpref hnew]; exact ho.sole (hmode ▸ hm)
        | true => simpa [hnew, preferredMoves, hm] using hmoves
      refine consoleInv_of_parts hpt hr ⟨hlock, hsole, ?_⟩ ?_
      · rw [ht.live, ht.live, ht.arb, hmode]; exact ho.standby
      · rw [ht.live, ht.arb, hmode]; exact hsrc
  · have hplaced := ownerOk_placeOwner hlock
    have hstay : (newPreferred && preferredMoves (placeOwner t)) = false := by
      have hsole := hplaced.sole
      by_cases hm : (placeOwner t).working.sourceMode = .sole <;> simp_all [preferredMoves]
    simp only [bne_iff_ne.mpr hmode, if_true, hstay, Bool.false_eq_true, if_false, Bool.true_or]
    exact consoleInv_trigger (by simpa using hpt) (rangesOk_placeOwner hr) hplaced hk

/-- A WRITE's words and the arbiter's act on them as one change (R19, R138). -/
theorem consoleInv_writeFrom {s : State} (x : Link) (a : Nat) (ws : List Word) (h : ConsoleInv s) (hp : s.phase ≠ .inReset) :
    ConsoleInv (writeFrom s x a ws).1 := by
  have hpref := writeWords_preferred (s := s) (a := a) (ws := ws)
  have hact := consoleInv_arbiterWritten (newPreferred := a ≤ 1 && 1 < a + (writeWords s a ws).2.1) h hp
    (wordKeeps_writeWords s a ws) (fun hno => by by_contra hne; simp [hpref hne] at hno)
    (snapshotNow_ok (rangesOk_of_consoleInv h))
  refine consoleInv_of_coreView (s := arbiterWritten _ _ _ _) ?_ hact
  unfold writeFrom
  dsimp only
  split
  · rfl
  · rename_i hno
    simp only [Bool.or_eq_true, not_or, Bool.not_eq_true] at hno
    simp only [arbiterWritten, hno.1, hno.2, Bool.false_eq_true, if_false, Bool.false_and, Bool.false_or]
    rfl

/-! ## The requests -/

theorem coreView_answerRead (s : State) (x : Link) (n : Nat) : coreView (answerRead s x n).state = coreView s := by
  unfold answerRead
  dsimp only
  split
  · exact coreView_offerFault _ _
  · rfl

theorem coreView_answerApply (s : State) : coreView (answerApply s).state = coreView s := by
  unfold answerApply
  dsimp only
  split
  · exact coreView_applyPatch s
  · exact coreView_applyPatch s

theorem consoleInv_answer {s : State} (x : Link) (q : Request) (h : ConsoleInv s) (hp : s.phase ≠ .inReset) :
    ConsoleInv (answer s x q).state := by
  cases q
  case index => exact consoleInv_of_coreView rfl h
  case write => exact consoleInv_writeFrom x _ _ h hp
  case read => exact consoleInv_of_coreView (coreView_answerRead s x _) h
  case hold => exact consoleInv_of_coreView (coreView_holdPatch s) h
  case apply => exact consoleInv_of_coreView (coreView_answerApply s) h
  case discard => exact consoleInv_of_coreView (coreView_discardPatch s) h
  case copy => exact consoleInv_of_coreView (coreView_startCopy s _ _ _) h
  case verify => exact consoleInv_of_coreView (coreView_startVerify s _) h
  case switch => exact consoleInv_of_coreView (coreView_switchBank s _) h
  case go => exact consoleInv_of_consoleView (consoleView_goPlayback s _) h
  case back => exact consoleInv_of_consoleView (consoleView_backPlayback s _) h
  case goto => exact consoleInv_of_consoleView (consoleView_gotoPlayback s _ _ _) h
  case pause => exact consoleInv_of_coreView (coreView_pausePlayback s _) h
  case resume => exact consoleInv_of_coreView (coreView_resumePlayback s _) h
  case release => exact consoleInv_of_coreView (coreView_releasePlayback s _ _) h
  case take => exact consoleInv_takeControl x h hp
  case lock => exact consoleInv_lockControl h hp
  case unlock => exact consoleInv_setLock h hp (by simp)
  case restart => exact consoleInv_of_coreView (coreView_restartPart s) h

theorem coreView_refusal (s : State) (code : Byte) (r : Result) : coreView (refusal s code r).state = coreView s := by
  unfold refusal
  split
  · rfl
  · split <;> rfl

theorem coreView_reply (r : Req) (code : Byte) (a : Answer) : coreView (reply r code a) = coreView a.state := by
  rw [reply_eq_answered]; exact coreView_answered _ _ _ _ _

/-- The taking of a request keeps the invariant where its run does. -/
theorem consoleInv_takeWith {s : State} {r : Req} {code : Byte} {valid ownerOnly : Bool} {run : State → Answer}
    (h : ConsoleInv s) (hrun : s.phase = .running → ConsoleInv (run s).state) :
    ConsoleInv (takeWith s r code valid ownerOnly run) := by
  have refused (res : Result) : ConsoleInv (reply r code (refusal s code res)) :=
    consoleInv_of_coreView ((coreView_reply r code _).trans (coreView_refusal s code res)) h
  unfold takeWith
  split
  · exact h
  · rename_i hphase
    have hphase : s.phase = .running := not_not.mp hphase
    split
    · exact consoleInv_countDropped _ h (by simp [hphase])
    · split
      · exact refused _
      · split
        · exact refused _
        · exact consoleInv_of_coreView (coreView_reply r code _) (hrun hphase)

theorem consoleInv_takeRequest {s : State} (r : Req) (q : Request) (h : ConsoleInv s) : ConsoleInv (takeRequest s r q) :=
  consoleInv_takeWith h fun hphase => consoleInv_answer r.link q h (by simp [hphase])

theorem consoleInv_takeWordWrite {s : State} (r : Req) (a : Nat) (v : Word) (h : ConsoleInv s) :
    ConsoleInv (takeWordWrite s r a v) :=
  consoleInv_takeWith h fun hphase => consoleInv_writeFrom r.link a [v] h (by simp [hphase])

theorem consoleInv_takeBytes {s : State} (r : Req) (code : Byte) (params : List Byte) (h : ConsoleInv s) :
    ConsoleInv (takeBytes s r code params) := by
  unfold takeBytes
  split
  · exact consoleInv_takeRequest r _ h
  · exact consoleInv_takeWith h fun _ => h

end Sys2Proof.Machine
end

section
/-! The step keeps the invariant of the links and of the control arbiter. -/

namespace Sys2Proof.Machine

/-! ## Frames and bytes -/

theorem consoleInv_acceptRequest {s : State} {x : Link} (unit tag code : Byte) (params : List Byte) (h : ConsoleInv s)
    (hp : s.phase ≠ .inReset) : ConsoleInv (acceptRequest s x unit tag code params) := by
  have hcounters (u : State) (hu : ConsoleInv u) : countersOk (linkOf u x).counters := by
    obtain ⟨-, -, hc, -⟩ := (rangesOk_of_consoleInv hu).links x
    exact hc
  have hcounted : ConsoleInv (setLink s x { linkOf s x with
      counters := { (linkOf s x).counters with goodRequest := bump (linkOf s x).counters.goodRequest } }) := by
    obtain ⟨h1, -, h3, h4, h5, h6, h7, h8, h9⟩ := hcounters s h
    exact consoleInv_setCounters h hp ⟨h1, bump_le _, h3, h4, h5, h6, h7, h8, h9⟩
  unfold acceptRequest
  dsimp only
  split
  · exact hcounted
  · split
    · exact consoleInv_takeBytes _ code params hcounted
    · obtain ⟨h1, h2, h3, h4, h5, h6, h7, -, h9⟩ := hcounters _ hcounted
      exact consoleInv_setCounters hcounted hp ⟨h1, h2, h3, h4, h5, h6, h7, bump_le _, h9⟩

theorem consoleInv_frameDone {s : State} {x : Link} (typ : Byte) (payload : List Byte) (crcHi crcLo : Byte)
    (h : ConsoleInv s) (hp : s.phase ≠ .inReset) : ConsoleInv (frameDone s x typ payload crcHi crcLo) := by
  have length : ConsoleInv (discard s x .hunt countLength) :=
    consoleInv_discard h hp rfl fun c ⟨h1, h2, h3, _, h5, h6, h7, h8, h9⟩ => ⟨h1, h2, h3, bump_le _, h5, h6, h7, h8, h9⟩
  have hhunt := consoleInv_setRx (x := x) (rx := .hunt) h hp rfl
  unfold frameDone
  split
  · exact consoleInv_discard h hp rfl fun c ⟨h1, h2, _, h4, h5, h6, h7, h8, h9⟩ =>
      ⟨h1, h2, bump_le _, h4, h5, h6, h7, h8, h9⟩
  · split
    · split
      · dsimp only
        split
        · rename_i hlevels
          obtain ⟨-, hb, -, hend⟩ := hlevels
          exact consoleInv_acceptLevels hhunt hp hb hend
        · exact length
      · exact length
    · split
      · split
        · exact consoleInv_acceptRequest _ _ _ _ hhunt hp
        · exact length
      · exact consoleInv_discard h hp rfl fun c ⟨h1, h2, h3, h4, h5, h6, _, h8, h9⟩ =>
          ⟨h1, h2, h3, h4, h5, h6, bump_le _, h8, h9⟩

theorem consoleInv_headerByte {s : State} {x : Link} {got : List Byte} (b : Byte) (h : ConsoleInv s)
    (hp : s.phase ≠ .inReset) (hgot : got.length ≤ 2) : ConsoleInv (headerByte s x got b) := by
  unfold headerByte
  split
  · split
    · exact consoleInv_discard h hp rfl fun c ⟨h1, h2, h3, h4, h5, _, h7, h8, h9⟩ =>
        ⟨h1, h2, h3, h4, h5, bump_le _, h7, h8, h9⟩
    · rename_i hlen
      exact consoleInv_setRx h hp (by simp [receptionOk]; omega)
  · rename_i hne
    refine consoleInv_setRx h hp ?_
    match got, hgot, hne with
    | [], _, _ => rfl
    | [_], _, _ => rfl
    | [typ, hi], _, hne => exact absurd rfl (hne typ hi)

theorem consoleInv_bodyByte {s : State} {x : Link} {typ : Byte} {len : Nat} {payload : List Byte} {crcHi : Option Byte}
    (b : Byte) (h : ConsoleInv s) (hp : s.phase ≠ .inReset) (hrx : receptionOk (.body typ len payload crcHi) = true) :
    ConsoleInv (bodyByte s x typ len payload crcHi b) := by
  simp only [receptionOk, Bool.and_eq_true, decide_eq_true_eq] at hrx
  obtain ⟨⟨hlen, hpayload⟩, -⟩ := hrx
  unfold bodyByte
  split
  · exact consoleInv_setRx h hp (by simp [receptionOk]; omega)
  · split
    · exact consoleInv_setRx h hp (by simp [receptionOk]; omega)
    · exact consoleInv_frameDone _ _ _ _ h hp

theorem consoleInv_takeByte {s : State} (x : Link) (b : Byte) (h : ConsoleInv s) : ConsoleInv (takeByte s x b) := by
  unfold takeByte
  split
  · exact h
  · rename_i hp
    obtain ⟨-, hrx, -⟩ := (rangesOk_of_consoleInv h).links x
    split
    · split
      · exact consoleInv_setRx h hp rfl
      · exact h
    · rename_i got hgot
      rw [hgot] at hrx
      exact consoleInv_headerByte b h hp (by simpa [receptionOk] using hrx)
    · rename_i hbody
      rw [hbody] at hrx
      exact consoleInv_bodyByte b h hp hrx
    · exact h

/-! ## Full reset, its release, and the end of the power-up check -/

theorem consoleInv_reset : ConsoleInv State.reset :=
  ⟨fun x => by cases x <;> decide, by decide, by decide, by decide, by decide, by decide, by decide, by decide⟩

theorem consoleInv_resetPart (s : State) : ConsoleInv (resetPart s) := consoleInv_of_consoleView rfl consoleInv_reset

/-- The part after the repair of the settings and curves (R167). -/
def repaired (s : State) : State :=
  (List.range' 1 7).foldl repairCurve
    (settingAddrs.foldl repairWord { s with phase := .checking, faultList := [], faultOverflow := false })

theorem releaseReset_eq {s : State} (h : s.phase = .inReset) :
    releaseReset s = clearFades (arbiterInit { loadWorking (repaired s) with
      active := bankOfWord (stored (loadWorking (repaired s)) selectionAddr).val }) :=
  if_neg (not_not.mpr h)

/-- The repair moves no link and no field of the arbiter. -/
theorem coreView_repaired (s : State) : coreView (repaired s) = coreView { s with phase := .checking } :=
  (foldl_keeps coreView repairCurve coreView_repairCurve (List.range' 1 7) _).trans
    (foldl_keeps coreView repairWord coreView_repairWord settingAddrs _)

/-- In full reset no link is LIVE, so that the initialisation of the arbiter leaves a state that the invariant allows. -/
theorem consoleInv_initialised {s u : State} (bank : Bank) (h : ConsoleInv s) (hp : s.phase = .inReset)
    (hu : coreView u = coreView { s with phase := .checking }) :
    ConsoleInv (clearFades (arbiterInit { loadWorking u with active := bank })) := by
  obtain ⟨hphase, hlinks, harb, -⟩ := coreView_eq_iff.mp hu
  have hr := rangesOk_of_consoleInv h
  have hlink (x : Link) : linkOf u x = LinkRx.reset := by
    rw [← links_of_inReset h hp x, linkOf, hlinks, linkOf]
  refine consoleInv_of_coreView (coreView_clearFades _) (consoleInv_arbiterInit ?_ ⟨fun x => ?_, ?_, ?_⟩ fun x => ?_)
  · exact fun he => absurd (hphase.symm.trans he) (by simp)
  · exact (hlink x ▸ links_of_inReset h hp x ▸ hr.links x : linkOk (linkOf u x))
  · exact (harb ▸ hr.snapshot : channelTableOk 65535 u.arb.snapshot)
  · exact (harb ▸ hr.elapsed : u.arb.elapsed ≤ 65535)
  · exact (by simp [isLive, hlink, LinkRx.reset] : isLive u x = false)

theorem consoleInv_releaseReset {s : State} (h : ConsoleInv s) : ConsoleInv (releaseReset s) := by
  by_cases hp : s.phase = .inReset
  · rw [releaseReset_eq hp]
    exact consoleInv_initialised _ h hp (coreView_repaired s)
  · unfold releaseReset
    rwa [if_pos hp]

/-- Past full reset the invariant does not depend on the phase. -/
theorem consoleInv_setPhase {s : State} {ph : Phase} (h : ConsoleInv s) (hp : s.phase ≠ .inReset) (hph : ph ≠ .inReset) :
    ConsoleInv { s with phase := ph } := by
  have hr := rangesOk_of_consoleInv h
  have ho := ownerOk_of_consoleInv h hp
  have hsrc := sourceFits_of_consoleInv h hp
  exact consoleInv_of_parts hph ⟨hr.links, hr.snapshot, hr.elapsed⟩ ⟨ho.lock, ho.sole, ho.standby⟩ hsrc

theorem consoleInv_endCheck {s : State} (h : ConsoleInv s) : ConsoleInv (endCheck s) := by
  unfold endCheck
  split
  · exact h
  · rename_i hp
    have hp : s.phase = .checking := not_not.mp hp
    have hview : coreView (allLines.foldl startLine
        (offerReport (loadBank (decideBank s).1 (decideBank s).2) (.startup (decideBank s).2))) = coreView s :=
      (foldl_keeps coreView startLine coreView_startLine allLines _).trans (by simp)
    have hphase := (coreView_eq_iff.mp hview).1
    have hended := consoleInv_setPhase (ph := .running) (consoleInv_of_coreView hview h) (by simp [hphase, hp]) (by simp)
    exact consoleInv_of_coreView ((coreView_startIfIdle _ _).trans (coreView_startIfIdle _ _)) hended

/-! ## Every command -/

/-- A command whose next states keep the invariant. -/
def KeepsConsole (o : Host.Outcome State Fault Refusal) : Prop := ∀ t, o = .next t → ConsoleInv t

theorem keepsConsole_next {s : State} (h : ConsoleInv s) : KeepsConsole (.next s) := fun _ ht => by
  injection ht with ht
  exact ht ▸ h

theorem keepsConsole_settle {s : State} (h : ConsoleInv s) : KeepsConsole (settle s) := fun _ ht =>
  (settle_eq_next.mp ht).2 ▸ h

theorem keepsConsole_ite {c : Prop} [Decidable c] {o o' : Host.Outcome State Fault Refusal} (h : KeepsConsole o)
    (h' : KeepsConsole o') : KeepsConsole (if c then o else o') := by
  split <;> assumption

/-- Every command keeps the invariant of the links and of the arbiter. -/
theorem keepsConsole_exec {s : State} (h : ConsoleInv s) (i : Instr) : KeepsConsole (exec i s) := by
  have core {t : State} (ht : coreView t = coreView s) : KeepsConsole (.next t) :=
    keepsConsole_next (consoleInv_of_coreView ht h)
  have request (r : Req) (q : Request) := consoleInv_takeRequest r q h
  have wordWrite (r : Req) (a : Nat) (v : Word) : KeepsConsole (.next (takeWordWrite s r a v)) :=
    keepsConsole_next (consoleInv_takeWordWrite r a v h)
  have same : KeepsConsole (.next s) := keepsConsole_next h
  have byte (x : Link) (b : Byte) : KeepsConsole (settle (takeByte s x b)) := keepsConsole_settle (consoleInv_takeByte x b h)
  have tick : KeepsConsole (.next (arbiterTick s)) := keepsConsole_next (consoleInv_arbiterTick h)
  have fade (o : StepOrder) : KeepsConsole (settle (fadeTick s o)) :=
    keepsConsole_settle (consoleInv_of_consoleView (consoleView_fadeTick s o) h)
  cases i
  case fullReset => exact keepsConsole_next (consoleInv_resetPart s)
  case resetRelease => exact keepsConsole_next (consoleInv_releaseReset h)
  case powerUpCheckEnd => exact keepsConsole_next (consoleInv_endCheck h)
  case gapError x => exact keepsConsole_next (consoleInv_gapExceeded x h)
  case drainEnd x => exact keepsConsole_next (consoleInv_drainEnds x h)
  case lossTimerStep x => exact keepsConsole_next (consoleInv_lossTick x h)
  case lossTimerExpiry x => exact keepsConsole_ite (keepsConsole_next (consoleInv_lossTick x h)) same
  case receivedByte x b => exact byte x b
  case frameComplete x b => exact keepsConsole_ite (byte x b) same
  case oversizeFrame x b => exact keepsConsole_ite (byte x b) same
  case arbiterStep => exact tick
  case handoverComplete => exact keepsConsole_ite tick same
  case lossFadeStart => exact keepsConsole_ite tick same
  case lossFadeEnd => exact keepsConsole_ite tick same
  case sourceModeWrite r v => exact wordWrite r _ v
  case preferredLinkWrite r v => exact wordWrite r _ v
  case boundStackWrite r p v => exact wordWrite r _ v
  case unitNumberWrite r v => exact wordWrite r _ v
  case lineEnableWrite r k v => exact wordWrite r _ v
  case counterClear r off v => exact keepsConsole_ite (wordWrite r _ v) same
  case activeBankWrite r off v => exact keepsConsole_ite (wordWrite r _ v) same
  case stagedBankWrite r bank off v => exact keepsConsole_ite (wordWrite r _ v) same
  case go r p => exact keepsConsole_settle (request r (.go p))
  case back r p => exact keepsConsole_settle (request r (.back p))
  case goto r p n t => exact keepsConsole_settle (request r (.goto p n t))
  case index r a => exact keepsConsole_next (request r (.index a))
  case write r ws => exact keepsConsole_next (request r (.write ws))
  case read r n => exact keepsConsole_next (request r (.read n))
  case hold r => exact keepsConsole_next (request r .hold)
  case apply r => exact keepsConsole_next (request r .apply)
  case discard r => exact keepsConsole_next (request r .discard)
  case copy r src dst n => exact keepsConsole_next (request r (.copy src dst n))
  case verify r b => exact keepsConsole_next (request r (.verify b))
  case switch r b => exact keepsConsole_next (request r (.switch b))
  case pause r p => exact keepsConsole_next (request r (.pause p))
  case resume r p => exact keepsConsole_next (request r (.resume p))
  case release r p t => exact keepsConsole_next (request r (.release p t))
  case take r => exact keepsConsole_next (request r .take)
  case lock r => exact keepsConsole_next (request r .lock)
  case unlock r => exact keepsConsole_next (request r .unlock)
  case restart r => exact keepsConsole_next (request r .restart)
  case copyWord => exact core (coreView_copyOne s)
  case verifyWord => exact core (coreView_verifyOne s)
  case fadeStep o => exact fade o
  case partDelayEnd p part o => exact keepsConsole_ite (fade o) same
  case cueCompletion p o => exact keepsConsole_ite (fade o) same
  case releaseCompletion p o => exact keepsConsole_ite (fade o) same
  case followExpiry p o => exact keepsConsole_ite (fade o) same
  case keyPressed k o => exact keepsConsole_ite (fade o) same
  case keyReleased k o => exact keepsConsole_ite (fade o) same
  case keyInputChange k pressed => exact keepsConsole_ite same (core rfl)
  case lineStep k => exact core (coreView_lineTick s k)
  case periodTimerExpiry k => exact keepsConsole_ite (core (coreView_lineTick s k)) same
  case circuitComposition k => exact core (coreView_composeNext s k)
  case endOfFrame k => exact core (coreView_frameEnd s k)
  case returnFrameStart x => exact core (coreView_startIfIdle s x)
  case returnFrameEnd x => exact keepsConsole_ite same (core (coreView_startFrame s x))
  case parityFault a v => exact core (coreView_parityFaultAt s _ v)

/-- Settles O57: a step runs the command at the front of the queue, and every command keeps the invariant. -/
theorem stepKeepsConsole : Obligations.StepKeepsConsole := by
  intro s t h ht
  unfold step at ht
  split at ht
  · exact keepsConsole_next h t ht
  · rename_i c rest _
    exact keepsConsole_exec (s := { s with pending := rest }) (consoleInv_of_coreView (s := s) rfl h) c t ht

end Sys2Proof.Machine
end

section
/-! Full reset, and the bytes, frames and idle times of the link receivers (R2 to R6, R13, R17, R18). -/

namespace Sys2Proof.Machine

/-! ## Full reset -/

theorem queueInv_reset : QueueInv State.reset :=
  ⟨fun x => by cases x <;> decide, by decide, fun x => by cases x <;> decide, by decide, fun h => absurd h (by decide)⟩

theorem storeInv_reset : StoreInv State.reset :=
  ⟨by decide, by decide, by decide, by decide, by decide, by decide, by decide, by decide, by decide, by decide,
    fun h => absurd h (by decide)⟩

theorem settingsInv_reset : SettingsInv State.reset :=
  ⟨by decide, by decide, fun h => absurd rfl h, by decide, by decide, by decide, by decide, by decide⟩

theorem playbackInv_reset : PlaybackInv State.reset := ⟨by decide, by decide, by decide, by decide⟩

/-- Settles O2, invariant by invariant. -/
theorem resetIsAllowed : Obligations.ResetIsAllowed :=
  ⟨consoleInv_reset, queueInv_reset, storeInv_reset, settingsInv_reset, playbackInv_reset⟩

theorem linkOf_resetPart (s : State) (x : Link) : linkOf (resetPart s) x = LinkRx.reset := by cases x <;> rfl

theorem playbackAt_resetPart (s : State) (p : PlaybackNo) : playbackAt (resetPart s) p = Playback.reset := by
  simp [playbackAt, resetPart, State.reset]

theorem lineAt_resetPart (s : State) (k : LineNo) : lineAt (resetPart s) k = Line.reset := by
  simp [lineAt, resetPart, State.reset]

/-- Settles O3, block by block, from what full reset leaves of each link, playback and line. -/
theorem fullResetLeaves : Obligations.FullResetLeaves := by
  intro s
  refine ⟨resetPart s, rfl, rfl, fun x => ?_, rfl, rfl, rfl, fun _ => ⟨rfl, rfl⟩, fun p => ?_, rfl, rfl, rfl, rfl, rfl, rfl,
    fun b => ?_, rfl, rfl, rfl, fun k => ?_, fun _ => rfl, fun k => ?_, fun _ => rfl⟩
  · have hbuffer (ch : Nat) : bufferLevel (resetPart s) x ch = 0 := by rw [bufferLevel, linkOf_resetPart]; rfl
    rw [linkOf_resetPart]
    refine ⟨rfl, rfl, rfl, rfl, rfl, hbuffer, ?_⟩
    cases x <;> exact ⟨rfl, rfl, rfl⟩
  · rw [playbackAt_resetPart]; exact ⟨rfl, rfl, rfl, rfl, rfl, rfl⟩
  · cases b <;> rfl
  · rw [lineAt_resetPart]; exact ⟨rfl, rfl, rfl⟩
  · cases k <;> rfl

/-! ## A byte by the reception state -/

section Byte

variable {s : State} {x : Link} (b : Byte)

theorem takeByte_hunt (hp : s.phase ≠ .inReset) (h : (linkOf s x).rx = .hunt) :
    takeByte s x b = if b = 0xE7 then setLink s x { linkOf s x with rx := .header [] } else s := by
  simp [takeByte, hp, h]

theorem takeByte_drain (hp : s.phase ≠ .inReset) (h : (linkOf s x).rx = .drain) : takeByte s x b = s := by
  simp [takeByte, hp, h]

theorem takeByte_header {got : List Byte} (hp : s.phase ≠ .inReset) (h : (linkOf s x).rx = .header got) :
    takeByte s x b = headerByte s x got b := by
  simp [takeByte, hp, h]

theorem takeByte_body {typ : Byte} {len : Nat} {payload : List Byte} {crcHi : Option Byte} (hp : s.phase ≠ .inReset)
    (h : (linkOf s x).rx = .body typ len payload crcHi) : takeByte s x b = bodyByte s x typ len payload crcHi b := by
  simp [takeByte, hp, h]

theorem exec_receivedByte : exec (.receivedByte x b) s = settle (takeByte s x b) := rfl

/-- A byte that stores a receiver's state, or nothing, is one step without a fault. -/
theorem exec_receivedByte_eq {t : State} (h : takeByte s x b = t) (ht : t.followStuck = false) :
    exec (.receivedByte x b) s = .next t := by
  rw [exec_receivedByte, h, settle_next ht]

theorem exec_oversizeFrame (h : oversizeDue s x b = true) : exec (.oversizeFrame x b) s = exec (.receivedByte x b) s :=
  if_pos h

theorem exec_frameComplete (h : completionDue s x = true) : exec (.frameComplete x b) s = exec (.receivedByte x b) s :=
  if_pos h

end Byte

/-- Settles O8, by the reception state and, in a frame, by what has been taken of it. -/
theorem byteIsTaken : Obligations.ByteIsTaken := by
  intro s x b hp hs
  have header {got : List Byte} {t : State} (h : (linkOf s x).rx = .header got) (ht : headerByte s x got b = t)
      (hts : t.followStuck = false) := exec_receivedByte_eq b ((takeByte_header b hp h).trans ht) hts
  have body {typ len payload crcHi} {t : State} (h : (linkOf s x).rx = .body typ len payload crcHi)
      (ht : bodyByte s x typ len payload crcHi b = t) (hts : t.followStuck = false) :=
    exec_receivedByte_eq b ((takeByte_body b hp h).trans ht) hts
  refine ⟨fun h => ?_, fun h => ?_, fun h => ?_, fun typ h => ?_, fun typ hi h hlen => ?_, fun typ len payload hi h hlen => ?_,
    fun typ len payload h hlen => ?_, fun typ hi h hlen => ?_⟩
  · exact exec_receivedByte_eq b (takeByte_hunt b hp h) (by split <;> exact hs)
  · exact exec_receivedByte_eq b (takeByte_drain b hp h) hs
  · exact header h rfl hs
  · exact header h rfl hs
  · exact header h (if_neg (Nat.not_lt.mpr hlen)) hs
  · exact body h (if_pos hlen) hs
  · exact body h (if_neg (Nat.not_lt.mpr hlen)) hs
  · have drained : exec (.receivedByte x b) s = .next (discard s x .drain countOversize) := header h (if_pos hlen) hs
    have due : oversizeDue s x b = true := by
      simp only [oversizeDue, h, Bool.and_eq_true, bne_iff_ne]
      exact ⟨hp, decide_eq_true hlen⟩
    simp only [List.mem_cons, List.not_mem_nil, or_false]
    rintro i (rfl | rfl)
    · exact drained
    · exact (exec_oversizeFrame b due).trans drained

/-! ## Idle time -/

/-- Settles O9, by the reception state. -/
theorem idleTimeEndsFrameOrDrain : Obligations.IdleTimeEndsFrameOrDrain := by
  intro s x
  have gap : exec (.gapError x) s = .next (gapExceeded s x) := rfl
  have drain : exec (.drainEnd x) s = .next (drainEnds s x) := rfl
  refine ⟨?_, fun h => ?_, fun h => ?_⟩
  · rintro (⟨got, h⟩ | ⟨typ, len, payload, hi, h⟩)
    · rw [gap, drain, gapExceeded, drainEnds, h]; exact ⟨rfl, rfl⟩
    · rw [gap, drain, gapExceeded, drainEnds, h]; exact ⟨rfl, rfl⟩
  · rw [gap, drain, gapExceeded, drainEnds, h]; exact ⟨rfl, rfl⟩
  · rw [gap, drain, gapExceeded, drainEnds, h]; exact ⟨rfl, rfl⟩

/-! ## The last byte of a frame -/

/-- The second CRC byte of a frame, as RECEIVED_BYTE or as FRAME_COMPLETE, brings the checks of R5. -/
theorem exec_lastByte {s : State} {x : Link} {typ : Byte} {len : Nat} {payload : List Byte} {hi lo : Byte}
    (hp : s.phase ≠ .inReset) (hrx : (linkOf s x).rx = .body typ len payload (some hi)) (hlen : payload.length = len) :
    ∀ i ∈ [Instr.receivedByte x lo, Instr.frameComplete x lo], exec i s = settle (frameDone s x typ payload hi lo) := by
  have received : exec (.receivedByte x lo) s = settle (frameDone s x typ payload hi lo) := by
    rw [exec_receivedByte, takeByte_body lo hp hrx, bodyByte, if_neg (by omega)]
  have due : completionDue s x = true := by simp [completionDue, hp, hrx, hlen]
  simp only [List.mem_cons, List.not_mem_nil, or_false]
  rintro i (rfl | rfl)
  · exact received
  · exact (exec_frameComplete lo due).trans received

/-- The CRC that the last two bytes of a frame give is the frame's own (R5). -/
abbrev crcGood (typ : Byte) (payload : List Byte) (hi lo : Byte) : Prop :=
  crc16 (typ :: wordBytes (wordOf payload.length) ++ payload) = wordOfBytes hi lo

section Frame

variable {s : State} {x : Link} {typ : Byte} {payload : List Byte} {hi lo : Byte}

theorem frameDone_badCrc (h : ¬ crcGood typ payload hi lo) :
    frameDone s x typ payload hi lo = discard s x .hunt countCrc := if_pos h

theorem frameDone_unknown (h : crcGood typ payload hi lo) (h1 : typ ≠ 0x10) (h2 : typ ≠ 0x20) :
    frameDone s x typ payload hi lo = discard s x .hunt countUnknown := by
  unfold frameDone
  rw [if_neg (not_not.mpr h), if_neg h1, if_neg h2]

/-- A level or request frame of less than three payload bytes fails the check of its length (R5). -/
theorem frameDone_short (h : crcGood typ payload hi lo) (htyp : typ = 0x10 ∨ typ = 0x20) (hlen : payload.length < 3) :
    frameDone s x typ payload hi lo = discard s x .hunt countLength := by
  unfold frameDone
  rw [if_neg (not_not.mpr h)]
  match payload, hlen with
  | [], _ | [_], _ | [_, _], _ => rcases htyp with rfl | rfl <;> rfl

/-- A level frame is accepted, or fails the check of its base channel and its length (R5). -/
theorem frameDone_levels {b1 b0 : Byte} {levels : List Byte} (h : crcGood 0x10 (b1 :: b0 :: levels) hi lo) :
    frameDone s x 0x10 (b1 :: b0 :: levels) hi lo =
      if levels ≠ [] ∧ 1 ≤ (wordOfBytes b1 b0).toNat ∧ (wordOfBytes b1 b0).toNat ≤ 512 ∧
          (wordOfBytes b1 b0).toNat + levels.length ≤ 513 then
        acceptLevels (setLink s x { linkOf s x with rx := .hunt }) x (wordOfBytes b1 b0).toNat levels
      else discard s x .hunt countLength := by
  unfold frameDone
  rw [if_neg (not_not.mpr h), if_pos rfl]

theorem frameDone_request {unit tag code : Byte} {params : List Byte}
    (h : crcGood 0x20 (unit :: tag :: code :: params) hi lo) :
    frameDone s x 0x20 (unit :: tag :: code :: params) hi lo =
      acceptRequest (setLink s x { linkOf s x with rx := .hunt }) x unit tag code params := by
  unfold frameDone
  rw [if_neg (not_not.mpr h), if_neg (by decide), if_pos rfl]

end Frame

/-- Settles O10, check by check in the order of R5. -/
theorem badFrameIsDiscarded : Obligations.BadFrameIsDiscarded := by
  intro s x typ payload hi lo hp hs hrx l good discarded i hi_mem
  have last {count : LinkCounters → LinkCounters} (h : frameDone s x typ payload hi lo = discard s x .hunt count) :
      exec i s = .next (discard s x .hunt count) := by
    rw [exec_lastByte hp hrx rfl i hi_mem, h]
    exact settle_next hs
  refine ⟨fun h => last (frameDone_badCrc h), fun h h1 h2 => last (frameDone_unknown h h1 h2), ?_, ?_, ?_⟩
  · rintro h rfl hlen
    exact last (frameDone_short h (.inl rfl) hlen)
  · rintro b1 b0 levels h rfl rfl hne hbase
    refine last ((frameDone_levels h).trans (if_neg ?_))
    rintro ⟨-, hb, -, hend⟩
    rcases hbase with h0 | hpast
    · rw [h0] at hb; exact absurd hb (by decide)
    · omega
  · rintro h rfl hlen
    exact last (frameDone_short h (.inr rfl) hlen)

end Sys2Proof.Machine
end

section
/-! The taking of requests (R9 to R11, R135, R136): the checks in their order, the request frames that hand requests over, and
the clearing of a counter (R17, R132). -/

namespace Sys2Proof.Machine

/-! ## Follow chains without an end arise in GO, BACK and GOTO alone -/

theorem trigger_followStuck (s : State) (k : Table Nat) : (trigger s k).followStuck = s.followStuck := by
  rw [trigger_frame]

theorem placeOwner_followStuck (s : State) : (placeOwner s).followStuck = s.followStuck := by
  unfold placeOwner; split <;> split <;> simp

theorem arbiterWritten_followStuck (s : State) (newMode newPreferred : Bool) (k : Table Nat) :
    (arbiterWritten s newMode newPreferred k).followStuck = s.followStuck := by
  unfold arbiterWritten
  dsimp only
  split <;> split <;> split <;> simp [trigger_followStuck, placeOwner_followStuck]

theorem writeFrom_followStuck (s : State) (x : Link) (a : Nat) (ws : List Word) :
    (writeFrom s x a ws).1.followStuck = s.followStuck := by
  have hwords := (wordKeeps_writeWords s a ws).followStuck
  unfold writeFrom
  dsimp only
  split
  · rw [arbiterWritten_followStuck, hwords]
  · exact hwords

theorem takeControl_followStuck (s : State) (x : Link) : (takeControl s x).1.followStuck = s.followStuck := by
  unfold takeControl
  iterate 5 (split; rfl)
  simp [trigger_followStuck]

/-- Whether a request can take a cue, and with it make cues complete. -/
def Request.takesCue : Request → Bool
  | .go _ | .back _ | .goto _ _ _ => true
  | _ => false

theorem answer_followStuck {s : State} {x : Link} {q : Request} (h : q.takesCue = false) :
    (answer s x q).state.followStuck = s.followStuck := by
  cases q
  case go | back | goto => exact absurd h (by simp [Request.takesCue])
  case index => rfl
  case write => exact writeFrom_followStuck s x _ _
  case read => exact followStuck_of_coreView (coreView_answerRead s x _)
  case hold => exact followStuck_of_coreView (coreView_holdPatch s)
  case apply => exact followStuck_of_coreView (coreView_answerApply s)
  case discard => exact followStuck_of_coreView (coreView_discardPatch s)
  case copy => exact followStuck_of_coreView (coreView_startCopy s _ _ _)
  case verify => exact followStuck_of_coreView (coreView_startVerify s _)
  case switch => exact followStuck_of_coreView (coreView_switchBank s _)
  case pause => exact followStuck_of_coreView (coreView_pausePlayback s _)
  case resume => exact followStuck_of_coreView (coreView_resumePlayback s _)
  case release => exact followStuck_of_coreView (coreView_releasePlayback s _ _)
  case take => exact takeControl_followStuck s x
  case lock => simp only [answer, plain, lockControl]; split <;> rfl
  case unlock => rfl
  case restart => exact followStuck_of_coreView (coreView_restartPart s)

theorem refusal_followStuck (s : State) (code : Byte) (r : Result) : (refusal s code r).state.followStuck = s.followStuck :=
  followStuck_of_coreView (coreView_refusal s code r)

theorem reply_followStuck (r : Req) (code : Byte) (a : Answer) : (reply r code a).followStuck = a.state.followStuck :=
  followStuck_of_coreView (coreView_reply r code a)

theorem takeWith_followStuck {s : State} {r : Req} {code : Byte} {valid ownerOnly : Bool} {run : State → Answer}
    (h : (run s).state.followStuck = s.followStuck) :
    (takeWith s r code valid ownerOnly run).followStuck = s.followStuck := by
  unfold takeWith
  iterate 2 (split; rfl)
  split
  · rw [reply_followStuck, refusal_followStuck]
  · split
    · rw [reply_followStuck, refusal_followStuck]
    · rw [reply_followStuck, h]

/-! ## A request's command -/

/-- The command of a request is its taking, and stops where a chain of follows in it has no end. -/
theorem exec_command {s : State} (r : Req) (q : Request) (hs : s.followStuck = false) :
    exec (q.command r) s = settle (takeRequest s r q) := by
  have goes (h : q.takesCue = false) : settle (takeRequest s r q) = .next (takeRequest s r q) :=
    settle_next ((takeWith_followStuck (answer_followStuck h)).trans hs)
  cases q
  case go | back | goto => rfl
  all_goals exact (goes rfl).symm

/-- A refused request leaves the state but for the count of free values drawn, which an APPLY's alone changes. -/
theorem refusal_eq (s : State) (code : Byte) (r : Result) : ∃ data n,
    refusal s code r = ⟨{ s with freeDraws := n }, r, data⟩ ∧ (code = 0x02 ∨ code = 0x15 → data = [0]) ∧
      (code ≠ 0x02 → code ≠ 0x11 → code ≠ 0x15 → data = []) ∧ (code ≠ 0x11 → n = s.freeDraws) := by
  unfold refusal
  split
  · rename_i hc
    exact ⟨_, _, rfl, fun h => absurd h (by simp [hc]), fun _ h => absurd hc h, fun h => absurd hc h⟩
  · split
    · rename_i hc
      exact ⟨_, _, rfl, fun _ => rfl, fun h2 _ h15 => absurd hc (not_or.mpr ⟨h2, h15⟩), fun _ => rfl⟩
    · rename_i hc
      exact ⟨_, _, rfl, fun h => absurd h hc, fun _ _ _ => rfl, fun _ => rfl⟩

theorem code_eq_apply {q : Request} : q.code = 0x11 ↔ q = .apply := by
  cases q <;> simp [Request.code]

theorem noSlot_eq_true {s : State} {r : Req} (hu : r.unit ≠ 0) (hq : 4 ≤ (s.replies.get r.link).length) :
    noSlot s r = true := by
  rw [noSlot, broadcast, beq_eq_false_iff_ne.mpr hu]
  simpa using hq

/-- Settles O18, check by check in the order of R10, R135 and R136. -/
theorem requestsAreCheckedInOrder : Obligations.RequestsAreCheckedInOrder := by
  intro s r q hp hs
  have refused {res : Result} {data : List Byte} {n : Nat}
      (hq : takeRequest s r q = reply r q.code (refusal s q.code res))
      (hr : refusal s q.code res = ⟨{ s with freeDraws := n }, res, data⟩) :
      exec (q.command r) s = .next (answered { s with freeDraws := n } r q.code res data) := by
    rw [exec_command r q hs, hq, hr, reply_eq_answered, settle_next]
    simpa using hs
  refine ⟨fun hu hfull => ?_, fun ht hq => ?_, fun ht ho hq hown => ?_, fun ht hq hown => ?_⟩
  · rw [exec_command r q hs, takeRequest, takeWith_dropped _ _ _ _ hp (noSlot_eq_true hu hfull)]
    exact settle_next hs
  · obtain ⟨data, n, hr, hwrite, -, hn⟩ := refusal_eq s q.code .badRequest
    have happly : q.code ≠ 0x11 := fun hc => by rw [code_eq_apply.mp hc] at hq; exact absurd hq (by decide)
    refine ⟨data, ?_, ?_⟩
    · have := refused (by rw [takeRequest, hq]; exact takeWith_malformed _ _ _ ht) hr
      rwa [hn happly] at this
    · rintro ⟨ws, rfl⟩
      exact hwrite (.inl rfl)
  · obtain ⟨data, n, hr, hwrite, -, hn⟩ := refusal_eq s q.code .notOwner
    refine ⟨data, n, refused ?_ hr, ?_, fun hne => hn fun hc => hne (code_eq_apply.mp hc)⟩
    · rw [takeRequest, hown]; exact takeWith_standby _ _ ht hq ho
    · rintro ⟨ws, rfl⟩
      exact hwrite (.inl rfl)
  · rw [exec_command r q hs, takeRequest, takeWith_run _ _ ht hq hown, settle, answered_followStuck]

/-! ## Request frames (R9, R10, R11) -/

@[simp] theorem setLink_setLink (s : State) (x : Link) (l l' : LinkRx) : setLink (setLink s x l) x l' = setLink s x l' := by
  cases x <;> rfl

/-- The state at which a good request frame is handed over: the receiver back in HUNT and the frame counted. -/
def requestCounted (s : State) (x : Link) : State :=
  setLink s x { linkOf s x with
    rx := .hunt,
    counters := { (linkOf s x).counters with goodRequest := bump (linkOf s x).counters.goodRequest } }

/-- A good request frame waits for the end of the power-up check, is handed over to this unit, or is filtered. -/
theorem acceptRequest_hunt (s : State) (x : Link) (unit tag code : Byte) (params : List Byte) :
    acceptRequest (setLink s x { linkOf s x with rx := .hunt }) x unit tag code params =
      if s.phase ≠ .running then requestCounted s x
      else if unit = 0 ∨ unit.toNat = s.working.unit then takeBytes (requestCounted s x) ⟨x, unit, tag⟩ code params
      else setLink s x { linkOf (requestCounted s x) x with
        counters := { (linkOf (requestCounted s x) x).counters with
          filtered := bump (linkOf (requestCounted s x) x).counters.filtered } } := by
  simp [acceptRequest, requestCounted]

/-- Settles O12, by the phase, the unit, and whether the code and the parameters spell a request. -/
theorem requestFrameIsFilteredAndRuns : Obligations.RequestFrameIsFilteredAndRuns := by
  intro s x unit tag code params hi lo hs hrx hcrc l counted s' i hmem
  have handed (hp : s.phase ≠ .inReset) := (exec_lastByte hp hrx rfl i hmem).trans
    (congrArg settle ((frameDone_request hcrc).trans (acceptRequest_hunt s x unit tag code params)))
  have taking (hp : s.phase = .running) (hu : unit = 0 ∨ unit.toNat = s.working.unit) :
      exec i s = settle (takeBytes s' ⟨x, unit, tag⟩ code params) := by
    rw [handed (by simp [hp]), if_neg (not_not.mpr hp), if_pos hu]; rfl
  have hs' : s'.followStuck = false := hs
  refine ⟨fun q hp hu hq => ?_, fun hp hu hq => ⟨fun hne hfull => ?_, fun hslot => ?_⟩, fun hp h0 hunit => ?_,
    fun hp => ?_⟩
  · rw [taking hp hu, exec_command _ q hs', takeBytes, hq]
  · rw [taking hp hu, takeBytes, hq]
    have dropped := takeWith_dropped (s := s') (r := ⟨x, unit, tag⟩) code false false (fun u => ⟨u, .badRequest, []⟩) hp
      (noSlot_eq_true hne hfull)
    refine (congrArg settle dropped).trans ((settle_next (s := countDropped s' x) hs').trans ?_)
    simp [countDropped, s', bump, counted, l]
  · obtain ⟨data, n, hr, hdata, hempty, hn⟩ := refusal_eq s' code .badRequest
    refine ⟨data, n, ?_, hdata, hempty, hn⟩
    rw [taking hp hu, takeBytes, hq]
    have refused := takeWith_malformed (s := s') (r := ⟨x, unit, tag⟩) code false (fun u => ⟨u, .badRequest, []⟩)
      ⟨hp, hslot⟩
    refine (congrArg settle refused).trans ?_
    rw [hr, reply_eq_answered]
    exact settle_next ((answered_followStuck _ _ _ _ _).trans hs')
  · rw [handed (by simp [hp]), if_neg (not_not.mpr hp), if_neg (not_or.mpr ⟨h0, hunit⟩)]
    refine (settle_next (s := setLink s x _) hs).trans ?_
    simp [requestCounted, bump, counted, l]
  · rw [handed (by simp [hp]), if_pos (by simp [hp])]
    exact settle_next hs

/-! ## The clearing of a counter (R17, R132, R140) -/

theorem placeOf_statusAddr {off : Nat} (h : off ≤ 23) : placeOf (statusAddr off) = .status off := by
  unfold placeOf statusAddr
  rw [if_neg (by omega), if_pos (by omega), Nat.add_sub_cancel_left]

theorem statusWords_length (s : State) : (statusWords s).length = 74 := rfl

/-- A counter of link A cleared is its word of the status area set to 0. -/
theorem statusWords_clear_a (s : State) {i : Nat} (h : i < 9) :
    statusWords (setLink s .a { linkOf s .a with counters := clearCounter (linkOf s .a).counters i }) =
      (statusWords s).set (2 + i) 0 := by
  interval_cases i <;> rfl

theorem statusWords_clear_b (s : State) {i : Nat} (h : i < 9) :
    statusWords (setLink s .b { linkOf s .b with counters := clearCounter (linkOf s .b).counters i }) =
      (statusWords s).set (11 + i) 0 := by
  interval_cases i <;> rfl

theorem statusWords_clear_late (s : State) (k : LineNo) :
    statusWords (setLine s k { lineAt s k with late := 0 }) = (statusWords s).set (20 + k.val) 0 := by
  have late (j : LineNo) : (lineAt (setLine s k { lineAt s k with late := 0 }) j).late =
      if j = k then 0 else (lineAt s j).late := by
    split
    · rename_i h; subst h; simp
    · rename_i h; rw [lineAt_setLine_of_ne s _ h]
  unfold statusWords
  simp only [late]
  fin_cases k <;> rfl

/-- What a write to a counter word takes: the one counter cleared, and its word of the status area with it. -/
theorem writeStatus_counter (s : State) {off : Nat} (hlo : 2 ≤ off) (hhi : off ≤ 23) :
    ∃ u, writeStatus s off = .taken u ∧ statusWords u = (statusWords s).set off 0 ∧
      u = { s with links := u.links, lines := u.lines } ∧
      (∀ x, linkOf u x = { linkOf s x with counters := (linkOf u x).counters }) ∧
      ∀ k, lineAt u k = { lineAt s k with late := (lineAt u k).late } := by
  unfold writeStatus
  by_cases ha : off ≤ 10
  · refine ⟨_, if_pos ⟨hlo, ha⟩, ?_, rfl, fun x => by cases x <;> rfl, fun _ => rfl⟩
    rw [statusWords_clear_a s (by omega), Nat.add_sub_cancel' hlo]
  · rw [if_neg (by omega)]
    by_cases hb : off ≤ 19
    · refine ⟨_, if_pos ⟨by omega, hb⟩, ?_, rfl, fun x => by cases x <;> rfl, fun _ => rfl⟩
      rw [statusWords_clear_b s (by omega), Nat.add_sub_cancel' (by omega)]
    · rw [if_neg (by omega)]
      refine ⟨_, dif_pos ⟨by omega, hhi⟩, ?_, rfl, fun _ => rfl, fun k => ?_⟩
      · rw [statusWords_clear_late, Nat.add_sub_cancel' (by omega)]
      · by_cases hk : k = ⟨off - 20, by omega⟩
        · subst hk; simp
        · rw [lineAt_setLine_of_ne s _ hk]

/-- A WRITE of one word at a counter's address, which the arbiter does not act on. -/
theorem writeFrom_counter {s u : State} (x : Link) {off : Nat} (v : Word) (hhi : off ≤ 23) (hu : writeStatus s off = .taken u)
    (hw : u.working = s.working) :
    writeFrom s x (statusAddr off) [v] =
      ({ u with tableIndex := u.tableIndex.put x (0x1000 + off + 1) }, 1, .ok) := by
  have hwords : writeWords s (statusAddr off) [v] = (u, 1, .ok) := by
    simp [writeWords, writeWord, placeOf_statusAddr hhi, hu]
  have hnext : (statusAddr off + 1) % 0x1000000 = 0x1000 + off + 1 := by simp only [statusAddr]; omega
  have hfar : ¬ statusAddr off ≤ 1 := by simp only [statusAddr]; omega
  simp [writeFrom, hwords, hnext, hfar, hw]

/-- Settles O27: the write takes the one word, and clears the one counter it shows. -/
theorem counterIsCleared : Obligations.CounterIsCleared := by
  intro s r off v ht
  refine ⟨fun hlo hhi => ?_, fun h => if_neg (by omega)⟩
  obtain ⟨u, hu, hwords, hframe, hlinks, hlines⟩ := writeStatus_counter s hlo hhi
  have hwrite := writeFrom_counter r.link v hhi hu (by rw [hframe])
  refine ⟨{ u with tableIndex := u.tableIndex.put r.link (0x1000 + off + 1) }, ?_, ?_, fun i hi hne => ?_, ?_, hlinks,
    hlines⟩
  · have hexec : exec (.counterClear r off v) s = .next (takeWordWrite s r (statusAddr off) v) := if_pos ⟨hlo, hhi⟩
    rw [hexec, takeWordWrite_owner _ _ ht, hwrite]
    rfl
  · show (statusWords u).getD off 0 = 0
    rw [hwords, List.getD_eq_getElem?_getD, List.getElem?_set_self (by rw [statusWords_length]; omega)]
    rfl
  · show (statusWords u).getD i 0 = _
    rw [hwords, List.getD_eq_getElem?_getD, List.getElem?_set_ne (Ne.symm hne), List.getD_eq_getElem?_getD]
  · rw [hframe]

end Sys2Proof.Machine
end

section
/-! The changes of a link into DOWN and into LIVE (R7, R13 to R16, R24 to R27, R31, R33): the reports they raise, and what the
arbiter does of them. -/

namespace Sys2Proof.Machine

/-! ## Reports of a change -/

/-- The return lines, the queues and the drop mark. -/
structure QueueView where
  tx       : PerLink (Option (List Byte))
  replies  : PerLink (List Reply)
  reports  : List Report
  dropMark : Bool

def queueView (s : State) : QueueView := ⟨s.tx, s.replies, s.reports, s.dropMark⟩

/-- Where both return lines are sending and the queue has room, one report is appended and nothing else queued. -/
def Offers (s t : State) (k : ReportKind) : Prop :=
  (∀ y, s.tx.get y ≠ none) → s.reports.length < 32 →
    queueView t = ⟨s.tx, s.replies, s.reports ++ [⟨k, s.dropMark⟩], false⟩

/-- Where both return lines are sending and the queue has room for two, the report of a link's change and those that the
arbiter adds are appended. -/
def Reports (s t : State) (k : ReportKind) (more : List ReportKind) : Prop :=
  (∀ y, s.tx.get y ≠ none) → s.reports.length + 2 ≤ 32 →
    t.reports = s.reports ++ ⟨k, s.dropMark⟩ :: more.map (⟨·, false⟩) ∧ t.dropMark = false ∧ t.tx = s.tx ∧
      t.replies = s.replies

theorem offers_offerReport (s : State) (k : ReportKind) : Offers s (offerReport s k) k := fun hbusy hroom => by
  rw [offerReport_of_busy k (.inr (hbusy _)), enqueueReport_of_room k hroom]
  rfl

theorem offers_changeOwner {s : State} {y : Link} (x : Link) (c : Cause) (h : s.arb.owner = y) :
    Offers s (changeOwner s x c) (.handover y x c) := fun hbusy hroom => by
  subst h
  unfold changeOwner
  dsimp only
  rw [startIfIdle_of_busy (s := { s with arb := { s.arb with owner := x, lock := false, holdoff := true } }) (.inr (hbusy x))]
  exact offers_offerReport _ _ hbusy hroom

theorem offers_returnTo (s : State) (x : Link) : Offers s (returnTo s x) (.handover s.arb.owner x .ret) := by
  unfold returnTo
  split
  · rename_i howner; rw [howner]; exact offers_offerReport s _
  · exact offers_changeOwner x .ret rfl

theorem reports_one {s t u : State} {k : ReportKind} (h : Offers s u k) (ht : queueView t = queueView u) : Reports s t k [] :=
  fun hbusy hroom => by
    obtain ⟨htx, hreplies, hreports, hmark⟩ := QueueView.mk.inj (ht.trans (h hbusy (by omega)))
    exact ⟨hreports, hmark, htx, hreplies⟩

theorem reports_two {s t u v : State} {k k' : ReportKind} (h : Offers s u k) (h' : Offers u v k')
    (ht : queueView t = queueView v) : Reports s t k [k'] := fun hbusy hroom => by
  obtain ⟨utx, ureplies, ureports, umark⟩ := QueueView.mk.inj (h hbusy (by omega))
  have hroom' : u.reports.length < 32 := by rw [ureports, List.length_append, List.length_singleton]; omega
  obtain ⟨htx, hreplies, hreports, hmark⟩ := QueueView.mk.inj (ht.trans (h' (utx ▸ hbusy) hroom'))
  refine ⟨?_, hmark, htx.trans utx, hreplies.trans ureplies⟩
  rw [hreports, ureports, umark, List.append_assoc]
  rfl

/-! ## The console source after a trigger -/

/-- The console-source state that a trigger with the console present enters (R31, R32). -/
def handoverTo (w : Working) : SourceState :=
  if w.handoverTime ≠ 0 then .handover else if w.sourceMode = .isolated then .off else .normal

/-- The console source has entered `src` from the arbiter `a`, with the snapshot of the contribution in `before`. -/
def Entered (before t : State) (src : SourceState) (a : Arbiter) : Prop :=
  t.arb = { a with source := src, snapshot := t.arb.snapshot, elapsed := 0 } ∧
    ∀ ch, 1 ≤ ch → ch ≤ 512 → snapshotLevel t ch = contribution before ch

theorem entered_of_arb {before t : State} {src : SourceState} {a : Arbiter}
    (h : t.arb = { a with source := src, snapshot := snapshotNow before, elapsed := 0 }) : Entered before t src a := by
  refine ⟨by rw [h], fun ch hlo hhi => ?_⟩
  rw [snapshotLevel, h]
  exact tget_tofFn zeroLevel 1 512 (contribution before) ⟨hlo, by omega⟩

theorem trigger_queueView (s : State) (k : Table Nat) : queueView (trigger s k) = queueView s := by
  rw [trigger_frame]; rfl

theorem trigger_arb_of_present {s : State} (k : Table Nat) (h : consolePresent s = true) :
    (trigger s k).arb = { s.arb with source := handoverTo s.working, snapshot := k, elapsed := 0 } := by
  unfold trigger handoverTo handoverDone
  rw [if_pos (.inr h)]
  split <;> simp_all

theorem consolePresent_of_live {s : State} (h : isLive s s.arb.owner = true) : consolePresent s = true := by
  unfold consolePresent
  split
  · cases ho : s.arb.owner <;> simp [ho] at h <;> simp [h]
  all_goals exact h

/-- In MERGE without a LIVE link a source that waits for a console stays as it is, and another enters HOLD (R31). -/
theorem trigger_of_merge_absent {s : State} (k : Table Nat) (hm : s.working.sourceMode = .merge)
    (h : ∀ x, isLive s x = false) :
    trigger s k = if s.arb.source = .hold ∨ s.arb.source = .lossFade ∨ s.arb.source = .dark then s else enterHold s k := by
  have absent : ¬ (s.working.sourceMode = .isolated ∨ consolePresent s = true) := by simp [hm, consolePresent, h]
  unfold trigger
  rw [if_neg absent]
  cases s.arb.source <;> rfl

/-- The contribution depends on the arbiter's source, the owner, the working copies, the buffers and the LIVE links. -/
theorem contribution_congr {s t : State} (hsource : t.arb.source = s.arb.source) (hsnap : t.arb.snapshot = s.arb.snapshot)
    (helapsed : t.arb.elapsed = s.arb.elapsed) (howner : t.arb.owner = s.arb.owner) (hw : t.working = s.working)
    (hbuffer : ∀ x, (linkOf t x).buffer = (linkOf s x).buffer) (hlive : ∀ x, isLive t x = isLive s x) (ch : Nat) :
    contribution t ch = contribution s ch := by
  simp only [contribution, modeTarget, snapshotLevel, bufferLevel, hsource, hsnap, helapsed, howner, hw, hbuffer, hlive]

/-! ## A link's change into DOWN -/

@[simp] theorem noticeDown_links (s : State) (x : Link) (k : Table Nat) : (noticeDown s x k).links = s.links := by
  rw [noticeDown_frame]

/-- The loss of the owner link where the standby takes over (R25). -/
theorem noticeDown_owner_standby {s : State} {x : Link} (k : Table Nat) (hp : s.phase ≠ .inReset) (ho : s.arb.owner = x)
    (hm : s.working.sourceMode ≠ .sole) (hlive : isLive s (otherLink x) = true) :
    noticeDown s x k =
      trigger (changeOwner { s with arb := { s.arb with lock := false } } (otherLink x) .loss) k := by
  unfold noticeDown
  rw [if_neg hp, if_pos ho]
  exact if_pos ⟨hm, hlive⟩

/-- The loss of the owner link without a standby to take over (R25, R33). -/
theorem noticeDown_owner_alone {s : State} {x : Link} (k : Table Nat) (hp : s.phase ≠ .inReset) (ho : s.arb.owner = x)
    (h : ¬ (s.working.sourceMode ≠ .sole ∧ isLive s (otherLink x) = true)) :
    noticeDown s x k = enterHold { s with arb := { s.arb with lock := false } } k := by
  unfold noticeDown
  rw [if_neg hp, if_pos ho]
  exact if_neg h

/-- The loss of the standby (R31). -/
theorem noticeDown_standby {s : State} {x : Link} (k : Table Nat) (hp : s.phase ≠ .inReset) (ho : s.arb.owner ≠ x) :
    noticeDown s x k = if s.working.sourceMode = .merge then trigger s k else s := by
  unfold noticeDown
  rw [if_neg hp, if_neg ho]

/-- The state in which the arbiter is told of the loss of link `x`: the link DOWN and LINK_DOWN offered. -/
def linkLost (s : State) (x : Link) : State :=
  offerReport (setLink s x { linkOf s x with state := .down, acq := 0, timer := none }) (.linkDown x)

theorem lossTick_stopped {s : State} {x : Link} (ht : (linkOf s x).timer = none) : lossTick s x = s := by
  unfold lossTick
  simp only [ht]

theorem lossTick_counts {s : State} {x : Link} {n : Nat} (ht : (linkOf s x).timer = some n) (h : n + 1 < s.working.lossTime) :
    lossDue s x = false ∧ lossTick s x = setLink s x { linkOf s x with timer := some (n + 1) } := by
  have due : lossDue s x = false := by simpa [lossDue, ht] using h
  refine ⟨due, ?_⟩
  unfold lossTick
  simp only [ht, due]
  rfl

@[simp] theorem linkLost_phase (s : State) (x : Link) : (linkLost s x).phase = s.phase := by simp [linkLost]
@[simp] theorem linkLost_arb (s : State) (x : Link) : (linkLost s x).arb = s.arb := by simp [linkLost]
@[simp] theorem linkLost_working (s : State) (x : Link) : (linkLost s x).working = s.working := by simp [linkLost]

@[simp] theorem isLive_linkLost_self (s : State) (x : Link) : isLive (linkLost s x) x = false := by simp [linkLost]

@[simp] theorem isLive_linkLost_other (s : State) (x : Link) :
    isLive (linkLost s x) (otherLink x) = isLive s (otherLink x) := by
  rw [linkLost, isLive_offerReport, isLive_setLink_of_ne s _ (otherLink_ne x)]

theorem offers_linkLost (s : State) (x : Link) : Offers s (linkLost s x) (.linkDown x) :=
  offers_offerReport (setLink s x _) _

theorem linkLost_frame (s : State) (x : Link) : linkLost s x =
    { s with
      links := (linkLost s x).links, replies := (linkLost s x).replies, tx := (linkLost s x).tx,
      reports := (linkLost s x).reports, dropMark := (linkLost s x).dropMark } := by
  ext1 <;> simp [linkLost]

theorem isLive_iff {s : State} {x : Link} : isLive s x = true ↔ (linkOf s x).state = .live := by simp [isLive]

/-- What a link's loss leaves. -/
def afterLoss (s : State) (x : Link) : State := noticeDown (linkLost s x) x (snapshotNow s)

theorem lossTick_expires {s : State} {x : Link} {n : Nat} (ht : (linkOf s x).timer = some n) (h : s.working.lossTime ≤ n + 1) :
    lossDue s x = true ∧ lossTick s x = afterLoss s x := by
  have due : lossDue s x = true := by simpa [lossDue, ht] using h
  refine ⟨due, ?_⟩
  unfold lossTick
  simp only [ht]
  exact if_pos due

theorem linkOf_afterLoss (s : State) (x y : Link) : linkOf (afterLoss s x) y = linkOf (linkLost s x) y := by
  simp [linkOf, afterLoss]

theorem afterLoss_frame (s : State) (x : Link) : afterLoss s x =
    { s with
      links := (afterLoss s x).links, arb := (afterLoss s x).arb, reports := (afterLoss s x).reports,
      dropMark := (afterLoss s x).dropMark, tx := (afterLoss s x).tx, replies := (afterLoss s x).replies } := by
  unfold afterLoss
  rw [noticeDown_frame, linkLost_frame]

section Loss

variable {s : State} {x : Link}

/-- Before the arbiter's initialisation a loss is reported and no more (R37). -/
theorem afterLoss_inReset (hp : s.phase = .inReset) : afterLoss s x = linkLost s x :=
  if_pos (by simpa using hp)

/-- At the loss of the owner link a LIVE standby takes over, and a handover starts (R25). -/
theorem afterLoss_owner_standby (hp : s.phase ≠ .inReset) (ho : s.arb.owner = x) (hm : s.working.sourceMode ≠ .sole)
    (hlive : isLive s (otherLink x) = true) :
    Entered s (afterLoss s x) (handoverTo s.working) { s.arb with owner := otherLink x, lock := false, holdoff := true } ∧
      Reports s (afterLoss s x) (.linkDown x) [.handover x (otherLink x) .loss] := by
  have hnotice : afterLoss s x = _ := noticeDown_owner_standby (s := linkLost s x) (snapshotNow s) (by simpa using hp)
    (by simpa using ho) (by simpa using hm) (by simpa using hlive)
  refine ⟨entered_of_arb ?_, ?_⟩
  · rw [hnotice, trigger_arb_of_present _ (consolePresent_of_live ?_), changeOwner_arb, changeOwner_working]
    · simp
    · rw [changeOwner_arb, isLive_changeOwner]
      exact (isLive_linkLost_other s x).trans hlive
  · exact reports_two (offers_linkLost s x)
      (offers_changeOwner (s := { linkLost s x with arb := { (linkLost s x).arb with lock := false } }) (otherLink x) .loss
        (by simpa using ho))
      (by rw [hnotice, trigger_queueView])

/-- At the loss of the owner link with no standby to take over the console source enters HOLD (R25, R33). -/
theorem afterLoss_owner_alone (hp : s.phase ≠ .inReset) (ho : s.arb.owner = x)
    (h : s.working.sourceMode = .sole ∨ isLive s (otherLink x) = false) :
    Entered s (afterLoss s x) .hold { s.arb with lock := false } ∧ Reports s (afterLoss s x) (.linkDown x) [] := by
  have hnotice : afterLoss s x = _ := noticeDown_owner_alone (s := linkLost s x) (snapshotNow s) (by simpa using hp)
    (by simpa using ho) (by rintro ⟨hm, hlive⟩; simp_all)
  refine ⟨entered_of_arb ?_, reports_one (offers_linkLost s x) ?_⟩
  · rw [hnotice, enterHold, linkLost_arb]
  · rw [hnotice]; rfl

theorem afterLoss_standby (hp : s.phase ≠ .inReset) (ho : s.arb.owner ≠ x) : afterLoss s x =
    if s.working.sourceMode = .merge then trigger (linkLost s x) (snapshotNow s) else linkLost s x := by
  rw [afterLoss, noticeDown_standby _ (by simpa using hp) (by simpa using ho), linkLost_working]

/-- At the loss of the standby LINK_DOWN is the one report. -/
theorem reports_afterLoss_standby (hp : s.phase ≠ .inReset) (ho : s.arb.owner ≠ x) :
    Reports s (afterLoss s x) (.linkDown x) [] := by
  refine reports_one (offers_linkLost s x) ?_
  rw [afterLoss_standby hp ho]
  split
  · exact trigger_queueView _ _
  · rfl

/-- In MERGE the loss of the standby starts a handover where the owner link is LIVE (R31). -/
theorem afterLoss_standby_present (hp : s.phase ≠ .inReset) (ho : s.arb.owner ≠ x) (hm : s.working.sourceMode = .merge)
    (hlive : isLive s (otherLink x) = true) : Entered s (afterLoss s x) (handoverTo s.working) s.arb := by
  refine entered_of_arb ?_
  rw [afterLoss_standby hp ho, if_pos hm, trigger_arb_of_present _ (consolePresent_of_live ?_), linkLost_arb, linkLost_working]
  rw [linkLost_arb, eq_otherLink_of_ne ho, isLive_linkLost_other, hlive]

/-- In MERGE the loss of the last LIVE link leaves a source that waits as it is, and brings another into HOLD (R31). -/
theorem afterLoss_standby_absent (hp : s.phase ≠ .inReset) (ho : s.arb.owner ≠ x) (hm : s.working.sourceMode = .merge)
    (hdead : isLive s (otherLink x) = false) : afterLoss s x =
      if s.arb.source = .hold ∨ s.arb.source = .lossFade ∨ s.arb.source = .dark then linkLost s x
      else enterHold (linkLost s x) (snapshotNow s) := by
  rw [afterLoss_standby hp ho, if_pos hm, trigger_of_merge_absent _ (by simpa using hm), linkLost_arb]
  intro y
  by_cases hy : y = x
  · rw [hy]; exact isLive_linkLost_self s x
  · rw [eq_otherLink_of_ne hy, isLive_linkLost_other, hdead]

end Loss

/-- Settles O13: the timer stopped, counting and expiring; and at an expiry the arbiter's act by the owner, the mode and the
other link. -/
theorem lossTimerCountsAndExpires : Obligations.LossTimerCountsAndExpires := by
  intro s x l w
  have step : exec (.lossTimerStep x) s = .next (lossTick s x) := rfl
  have expiry : exec (.lossTimerExpiry x) s = if lossDue s x then .next (lossTick s x) else .next s := rfl
  refine ⟨fun ht => ?_, fun n ht hn => ?_, fun n ht hn => ?_⟩
  · rw [step, expiry, lossTick_stopped ht]
    exact ⟨rfl, ite_self _⟩
  · obtain ⟨due, htick⟩ := lossTick_counts ht hn
    rw [step, expiry, due, htick]
    exact ⟨rfl, rfl⟩
  · obtain ⟨due, htick⟩ := lossTick_expires ht hn
    refine ⟨afterLoss s x, by rw [step, htick], by rw [expiry, due, htick]; rfl, ?_, ?_, afterLoss_frame s x, ?_⟩
    · rw [linkOf_afterLoss, linkLost, linkOf_offerReport, linkOf_setLink_self]
    · rw [linkOf_afterLoss, linkLost, linkOf_offerReport, linkOf_setLink_of_ne s _ (otherLink_ne x)]
    · intro otherLive waits entered handoverTo' reported
      have live (h : otherLive) : isLive s (otherLink x) = true := isLive_iff.mpr h
      have dead (h : ¬ otherLive) : isLive s (otherLink x) = false := Bool.eq_false_iff.mpr fun he => h (isLive_iff.mp he)
      refine ⟨fun hp => ?_, fun hp ho => ⟨fun hm h => afterLoss_owner_standby hp ho hm (live h), fun h => ?_⟩,
        fun hp ho => ⟨reports_afterLoss_standby hp ho, fun hm => ?_, fun hm h => afterLoss_standby_present hp ho hm (live h),
          fun hm h => ⟨fun hw => ?_, fun hw => entered_of_arb ?_⟩⟩⟩
      · rw [afterLoss_inReset hp]
        exact ⟨linkLost_arb s x, reports_one (offers_linkLost s x) (by rw [afterLoss_inReset hp])⟩
      · exact afterLoss_owner_alone hp ho (h.imp_right dead)
      · rw [afterLoss_standby hp ho, if_neg hm, linkLost_arb]
      · rw [afterLoss_standby_absent hp ho hm (dead h), if_pos hw, linkLost_arb]
      · rw [afterLoss_standby_absent hp ho hm (dead h), if_neg hw, enterHold, linkLost_arb]

end Sys2Proof.Machine
end

section
/-! A good LEVEL frame (R7, R13, R16, R24) and a link's change into LIVE (R26, R27, R31). -/

namespace Sys2Proof.Machine

/-! ## The levels and the counter -/

/-- A level written at a channel is read there, and every other channel reads as before (R7). -/
theorem tget_writeLevels (buf : Table Nat) (b : Nat) (levels : List Byte) (ch : Nat) :
    tget zeroLevel (writeLevels buf b levels) ch =
      if b ≤ ch ∧ ch < b + levels.length then (levels.getD (ch - b) 0).toNat else tget zeroLevel buf ch := by
  induction levels generalizing buf b with
  | nil => rw [if_neg (by simp only [List.length_nil]; omega)]; rfl
  | cons v vs ih =>
    rw [writeLevels, ih, List.length_cons]
    by_cases hch : ch = b
    · subst hch
      rw [if_neg (by omega), if_pos (by omega), tget_tset_self, Nat.sub_self]
      rfl
    · rw [tget_tset_of_ne _ _ _ hch]
      by_cases hin : b + 1 ≤ ch ∧ ch < b + 1 + vs.length
      · rw [if_pos hin, if_pos (by omega), show ch - b = ch - (b + 1) + 1 by omega, List.getD_cons_succ]
      · rw [if_neg hin, if_neg (by omega)]

/-- The receiver after a good level frame, before the frame acts on the link's state. -/
def levelsWritten (l : LinkRx) (b : Nat) (levels : List Byte) : LinkRx :=
  { l with
    rx := .hunt, buffer := writeLevels l.buffer b levels,
    counters := { l.counters with goodLevel := bump l.counters.goodLevel } }

/-- The arbiter after a good level frame of link `x`: on the owner's link it clears the holdoff (R24). -/
def holdoffCleared (a : Arbiter) (x : Link) : Arbiter :=
  { a with holdoff := if a.owner = x then false else a.holdoff }

/-- The state in which a good level frame acts on its link's state. -/
def levelsAccepted (s : State) (x : Link) (b : Nat) (levels : List Byte) : State :=
  { setLink s x (levelsWritten (linkOf s x) b levels) with arb := holdoffCleared s.arb x }

theorem clearHoldoff_eq (s : State) (x : Link) : clearHoldoff s x = { s with arb := holdoffCleared s.arb x } := by
  unfold clearHoldoff holdoffCleared
  split <;> rfl

theorem acceptLevels_hunt (s : State) (x : Link) (b : Nat) (levels : List Byte) :
    acceptLevels (setLink s x { linkOf s x with rx := .hunt }) x b levels = acquire (levelsAccepted s x b levels) x := by
  simp [acceptLevels, clearHoldoff_eq, levelsAccepted, levelsWritten]

theorem linkOf_levelsAccepted (s : State) (x : Link) (b : Nat) (levels : List Byte) (y : Link) :
    linkOf (levelsAccepted s x b levels) y = linkOf (setLink s x (levelsWritten (linkOf s x) b levels)) y := rfl

/-! ## The link's state -/

/-- The frame that makes a link LIVE: the third good one in ACQUIRING (R13). -/
def becomesLive (l : LinkRx) : Prop := l.state = .acquiring ∧ 2 ≤ l.acq

/-- A receiver after a good level frame has acted on its link's state (R13). -/
def acquiredRx (l : LinkRx) : LinkRx :=
  match l.state with
  | .down => { l with state := .acquiring, acq := 1, timer := some 0 }
  | .acquiring =>
    if l.acq < 2 then { l with acq := l.acq + 1, timer := some 0 } else { l with state := .live, acq := 0, timer := some 0 }
  | .live => { l with timer := some 0 }

/-- Whatever the link's state, the frame restarts the loss timer and leaves the reception, the buffer and the counters. -/
theorem acquiredRx_frame (l : LinkRx) :
    acquiredRx l = { l with state := (acquiredRx l).state, acq := (acquiredRx l).acq, timer := some 0 } := by
  unfold acquiredRx
  split
  · rfl
  · split <;> rfl
  · rfl

theorem acquiredRx_of_becomesLive {l : LinkRx} (h : becomesLive l) :
    acquiredRx l = { l with state := .live, acq := 0, timer := some 0 } := by
  obtain ⟨hs, ha⟩ := h
  simp [acquiredRx, hs, Nat.not_lt.mpr ha]

theorem acquiredRx_of_down {l : LinkRx} (h : l.state = .down) :
    acquiredRx l = { l with state := .acquiring, acq := 1, timer := some 0 } := by
  simp [acquiredRx, h]

theorem acquiredRx_of_counting {l : LinkRx} (h : l.state = .acquiring) (hcount : l.acq < 2) :
    acquiredRx l = { l with acq := l.acq + 1, timer := some 0 } := by
  simp [acquiredRx, h, hcount]

theorem acquiredRx_of_live {l : LinkRx} (h : l.state = .live) : acquiredRx l = { l with timer := some 0 } := by
  simp [acquiredRx, h]

theorem acquire_of_not_becomesLive {s : State} {x : Link} (h : ¬ becomesLive (linkOf s x)) :
    acquire s x = setLink s x (acquiredRx (linkOf s x)) := by
  unfold acquire
  dsimp only
  split
  case h_1 hs => rw [acquiredRx_of_down hs]
  case h_2 hs =>
    have hcount : (linkOf s x).acq < 2 := by
      by_contra hge
      exact h ⟨hs, Nat.not_lt.mp hge⟩
    rw [acquiredRx_of_counting hs hcount, if_pos hcount]
  case h_3 hs => rw [acquiredRx_of_live hs]

/-- The state in which the arbiter is told that link `x` has become LIVE, with LINK_LIVE offered. -/
def linkGained (s : State) (x : Link) : State :=
  offerReport (setLink s x (acquiredRx (linkOf s x))) (.linkLive x)

theorem acquire_of_becomesLive {s : State} {x : Link} (h : becomesLive (linkOf s x)) :
    acquire s x = noticeLive (linkGained s x) x (snapshotNow s) := by
  rw [linkGained, acquiredRx_of_becomesLive h]
  obtain ⟨hs, ha⟩ := h
  unfold acquire
  simp only [hs]
  exact if_neg (Nat.not_lt.mpr ha)

@[simp] theorem noticeLive_links (s : State) (x : Link) (k : Table Nat) : (noticeLive s x k).links = s.links := by
  rw [noticeLive_frame]

/-- What a good level frame makes of the links. -/
theorem acquire_links (s : State) (x : Link) : (acquire s x).links = (setLink s x (acquiredRx (linkOf s x))).links := by
  by_cases h : becomesLive (linkOf s x)
  · rw [acquire_of_becomesLive h, noticeLive_links, linkGained, offerReport_links]
  · rw [acquire_of_not_becomesLive h]

theorem linkOf_acquire (s : State) (x y : Link) :
    linkOf (acquire s x) y = linkOf (setLink s x (acquiredRx (linkOf s x))) y := by
  rw [linkOf, acquire_links, ← linkOf]

theorem acquire_frame (s : State) (x : Link) : acquire s x =
    { s with
      links := (acquire s x).links, arb := (acquire s x).arb, reports := (acquire s x).reports,
      dropMark := (acquire s x).dropMark, tx := (acquire s x).tx, replies := (acquire s x).replies } := by
  by_cases h : becomesLive (linkOf s x)
  · rw [acquire_of_becomesLive h, noticeLive_frame, linkGained, offerReport_frame]
    rfl
  · rw [acquire_of_not_becomesLive h]
    rfl

/-! ## The notice of a link's change into LIVE -/

section Notice

variable {s : State} {x : Link} (k : Table Nat)

theorem noticeLive_returns (hp : s.phase ≠ .inReset) (hr : returns s x = true) :
    noticeLive s x k = trigger (returnTo s x) k := by
  unfold noticeLive
  rw [if_neg hp, if_pos hr]

theorem noticeLive_reclaims (hp : s.phase ≠ .inReset) (hr : returns s x = false) (hc : reclaims s x = true) :
    noticeLive s x k = trigger (changeOwner s x .reclaim) k := by
  unfold noticeLive
  rw [if_neg hp, hr, if_neg Bool.false_ne_true, if_pos hc]

theorem noticeLive_keeps (hp : s.phase ≠ .inReset) (hr : returns s x = false) (hc : reclaims s x = false) :
    noticeLive s x k = if s.working.sourceMode = .merge then trigger s k else s := by
  unfold noticeLive
  rw [if_neg hp, hr, if_neg Bool.false_ne_true, hc, if_neg Bool.false_ne_true]

theorem returnTo_arb (s : State) (x : Link) : (returnTo s x).arb =
    if s.arb.owner = x then s.arb else { s.arb with owner := x, lock := false, holdoff := true } := by
  unfold returnTo
  split
  · simp
  · exact changeOwner_arb _ _ _

@[simp] theorem returnTo_working (s : State) (x : Link) : (returnTo s x).working = s.working := by
  rw [returnTo_frame]

theorem isLive_returnTo (s : State) (x y : Link) : isLive (returnTo s x) y = isLive s y := by
  rw [returnTo_frame]; rfl

theorem returnTo_owner (s : State) (x : Link) : (returnTo s x).arb.owner = x := by
  rw [returnTo_arb]
  split
  · assumption
  · rfl

end Notice

section Gain

variable {s : State} {x : Link}

@[simp] theorem linkGained_phase (s : State) (x : Link) : (linkGained s x).phase = s.phase := by simp [linkGained]
@[simp] theorem linkGained_arb (s : State) (x : Link) : (linkGained s x).arb = s.arb := by simp [linkGained]
@[simp] theorem linkGained_working (s : State) (x : Link) : (linkGained s x).working = s.working := by simp [linkGained]

theorem isLive_linkGained_self (h : becomesLive (linkOf s x)) : isLive (linkGained s x) x = true := by
  simp [linkGained, acquiredRx_of_becomesLive h]

theorem isLive_linkGained_of_ne {y : Link} (h : y ≠ x) : isLive (linkGained s x) y = isLive s y := by
  rw [linkGained, isLive_offerReport, isLive_setLink_of_ne s _ h]

theorem offers_linkGained (s : State) (x : Link) : Offers s (linkGained s x) (.linkLive x) :=
  offers_offerReport (setLink s x _) _

/-- R26 in the state after the change: the owner link that is not LIVE is then the other link. -/
theorem returns_linkGained (h : becomesLive (linkOf s x)) : returns (linkGained s x) x = true ↔
    (s.working.sourceMode ≠ .sole ∨ x = s.working.preferred) ∧
      ((s.arb.source = .hold ∨ s.arb.source = .lossFade ∨ s.arb.source = .dark) ∨
        (s.arb.owner ≠ x ∧ (linkOf s s.arb.owner).state ≠ .live)) := by
  have owner_dead : isLive (linkGained s x) s.arb.owner = false ↔
      s.arb.owner ≠ x ∧ (linkOf s s.arb.owner).state ≠ .live := by
    by_cases ho : s.arb.owner = x
    · simp [ho, isLive_linkGained_self h]
    · rw [isLive_linkGained_of_ne ho]
      simp [ho, isLive]
  rw [returns_iff, linkGained_arb, linkGained_working, owner_dead]

/-- A return makes the link the owner, or leaves it so, and starts a handover (R26). -/
theorem acquire_returns (hp : s.phase ≠ .inReset) (h : becomesLive (linkOf s x)) (hr : returns (linkGained s x) x = true) :
    Entered s (acquire s x) (handoverTo s.working)
        (if s.arb.owner = x then s.arb else { s.arb with owner := x, lock := false, holdoff := true }) ∧
      Reports s (acquire s x) (.linkLive x) [.handover s.arb.owner x .ret] := by
  have hnotice := (acquire_of_becomesLive h).trans (noticeLive_returns (snapshotNow s) (by simpa using hp) hr)
  refine ⟨entered_of_arb ?_, ?_⟩
  · rw [hnotice, trigger_arb_of_present _ (consolePresent_of_live ?_), returnTo_arb, returnTo_working, linkGained_arb,
      linkGained_working]
    rw [returnTo_owner, isLive_returnTo, isLive_linkGained_self h]
  · have offers := offers_returnTo (linkGained s x) x
    rw [linkGained_arb] at offers
    exact reports_two (offers_linkGained s x) offers (by rw [hnotice, trigger_queueView])

/-- A reclaim makes the preferred link the owner and starts a handover (R27). -/
theorem acquire_reclaims (hp : s.phase ≠ .inReset) (h : becomesLive (linkOf s x)) (hr : returns (linkGained s x) x = false)
    (hc : reclaims (linkGained s x) x = true) :
    Entered s (acquire s x) (handoverTo s.working) { s.arb with owner := x, lock := false, holdoff := true } ∧
      Reports s (acquire s x) (.linkLive x) [.handover s.arb.owner x .reclaim] := by
  have hnotice := (acquire_of_becomesLive h).trans (noticeLive_reclaims (snapshotNow s) (by simpa using hp) hr hc)
  refine ⟨entered_of_arb ?_, ?_⟩
  · rw [hnotice, trigger_arb_of_present _ (consolePresent_of_live ?_), changeOwner_arb, changeOwner_working, linkGained_arb,
      linkGained_working]
    rw [changeOwner_arb, isLive_changeOwner, isLive_linkGained_self h]
  · exact reports_two (offers_linkGained s x) (offers_changeOwner x .reclaim (linkGained_arb s x ▸ rfl))
      (by rw [hnotice, trigger_queueView])

/-- A change into LIVE that is neither starts a handover in MERGE, and leaves the arbiter in the other modes (R31). -/
theorem acquire_keeps (hp : s.phase ≠ .inReset) (h : becomesLive (linkOf s x)) (hr : returns (linkGained s x) x = false)
    (hc : reclaims (linkGained s x) x = false) :
    Reports s (acquire s x) (.linkLive x) [] ∧
      (s.working.sourceMode = .merge → Entered s (acquire s x) (handoverTo s.working) s.arb) ∧
      (s.working.sourceMode ≠ .merge → (acquire s x).arb = s.arb) := by
  have hnotice := (acquire_of_becomesLive h).trans (noticeLive_keeps (snapshotNow s) (by simpa using hp) hr hc)
  rw [linkGained_working] at hnotice
  refine ⟨reports_one (offers_linkGained s x) ?_, fun hm => entered_of_arb ?_, fun hm => ?_⟩
  · rw [hnotice]
    split
    · exact trigger_queueView _ _
    · rfl
  · have present : consolePresent (linkGained s x) = true := by
      have live := isLive_linkGained_self h
      cases x <;> simp [consolePresent, hm, live]
    rw [hnotice, if_pos hm, trigger_arb_of_present _ present, linkGained_arb, linkGained_working]
  · rw [hnotice, if_neg hm, linkGained_arb]

end Gain

/-! ## The frame -/

theorem state_levelsAccepted (s : State) (x : Link) (b : Nat) (levels : List Byte) (y : Link) :
    (linkOf (levelsAccepted s x b levels) y).state = (linkOf s y).state := by
  rw [linkOf_levelsAccepted]
  by_cases hy : y = x
  · subst hy; rw [linkOf_setLink_self]; rfl
  · rw [linkOf_setLink_of_ne s _ hy]

theorem linkOf_levelsAccepted_self (s : State) (x : Link) (b : Nat) (levels : List Byte) :
    linkOf (levelsAccepted s x b levels) x = levelsWritten (linkOf s x) b levels := by
  rw [linkOf_levelsAccepted, linkOf_setLink_self]

/-- The contribution just before the frame acts is that of the state before it with the frame's levels in the buffer. -/
theorem contribution_levelsAccepted (s : State) (x : Link) (b : Nat) (levels : List Byte) (ch : Nat) :
    contribution (levelsAccepted s x b levels) ch =
      contribution (setLink s x { linkOf s x with buffer := writeLevels (linkOf s x).buffer b levels }) ch := by
  refine contribution_congr (t := levelsAccepted s x b levels) (s := setLink s x _) rfl rfl rfl rfl rfl (fun y => ?_)
    (fun y => ?_) ch
  · rw [linkOf_levelsAccepted]
    by_cases hy : y = x
    · subst hy; rw [linkOf_setLink_self, linkOf_setLink_self]; rfl
    · rw [linkOf_setLink_of_ne s _ hy, linkOf_setLink_of_ne s _ hy]
  · have same : isLive (levelsAccepted s x b levels) y = isLive s y := by rw [isLive, state_levelsAccepted, isLive]
    exact same.trans (isLive_setLink_of_state (by rfl) y).symm

/-- A good level frame, as RECEIVED_BYTE or as FRAME_COMPLETE of its last byte, is accepted and acts on its link's state. -/
theorem exec_levelFrame {s : State} {x : Link} {b1 b0 hi lo : Byte} {levels : List Byte} (hp : s.phase ≠ .inReset)
    (hs : s.followStuck = false)
    (hrx : (linkOf s x).rx = .body 0x10 (levels.length + 2) (b1 :: b0 :: levels) (some hi))
    (hcrc : crcGood 0x10 (b1 :: b0 :: levels) hi lo) (hne : levels ≠ []) (hb : 1 ≤ (wordOfBytes b1 b0).toNat)
    (hend : (wordOfBytes b1 b0).toNat + levels.length ≤ 513) :
    ∀ i ∈ [Instr.receivedByte x lo, Instr.frameComplete x lo],
      exec i s = .next (acquire (levelsAccepted s x (wordOfBytes b1 b0).toNat levels) x) := by
  intro i hmem
  have hlen := List.length_pos_of_ne_nil hne
  rw [exec_lastByte hp hrx rfl i hmem, frameDone_levels hcrc, if_pos ⟨hne, hb, by omega, hend⟩, acceptLevels_hunt]
  refine settle_next ?_
  rw [acquire_frame]
  exact hs

/-- Settles O11: the link by its state before the frame, and where it becomes LIVE the arbiter by R26, R27 and R31. -/
theorem levelFrameIsAccepted : Obligations.LevelFrameIsAccepted := by
  intro s x b1 b0 levels hi lo hp hs hrx hcrc hne hb hend l w b
  have hp' : (levelsAccepted s x b levels).phase ≠ .inReset := hp
  have hself := linkOf_levelsAccepted_self s x b levels
  have hrx' : linkOf (acquire (levelsAccepted s x b levels) x) x = acquiredRx (levelsWritten l b levels) := by
    rw [linkOf_acquire, linkOf_setLink_self, hself]
  have hbuffer : (linkOf (acquire (levelsAccepted s x b levels) x) x).buffer = writeLevels l.buffer b levels := by
    rw [hrx', acquiredRx_frame]; rfl
  refine ⟨acquire (levelsAccepted s x b levels) x, exec_levelFrame hp hs hrx hcrc hne hb hend, ?_, ?_, fun ch => ?_, ?_,
    fun hst => ?_, fun hst hcount => ?_, fun hst hcount => ?_, fun hst => ?_, ?_, acquire_frame _ x, ?_⟩
  · rw [hrx', acquiredRx_frame]; rfl
  · rw [hrx', acquiredRx_frame]; rfl
  · rw [bufferLevel, hbuffer]; exact tget_writeLevels l.buffer b levels ch
  · rw [hrx', acquiredRx_frame]
  · rw [hrx', acquiredRx_of_down (l := levelsWritten l b levels) hst]; exact ⟨rfl, rfl⟩
  · rw [hrx', acquiredRx_of_counting (l := levelsWritten l b levels) hst hcount]; exact ⟨hst, rfl⟩
  · rw [hrx', acquiredRx_of_becomesLive (l := levelsWritten l b levels) ⟨hst, hcount⟩]; exact ⟨rfl, rfl⟩
  · rw [hrx', acquiredRx_of_live (l := levelsWritten l b levels) hst]; exact ⟨hst, rfl⟩
  · rw [linkOf_acquire, linkOf_setLink_of_ne _ _ (otherLink_ne x), linkOf_levelsAccepted,
      linkOf_setLink_of_ne _ _ (otherLink_ne x)]
  · refine ⟨fun hstays => ?_, fun hst hcount => ?_⟩
    · rw [acquire_of_not_becomesLive]
      · rfl
      · rw [hself]
        rintro ⟨hst, hcount⟩
        exact hstays.elim (fun h => h hst) (fun h => absurd hcount (Nat.not_le.mpr h))
    · intro before returns_ reclaims_ triggered reported changed
      have hlive : becomesLive (linkOf (levelsAccepted s x b levels) x) := hself ▸ ⟨hst, hcount⟩
      have hret : returns (linkGained (levelsAccepted s x b levels) x) x = true ↔ returns_ := by
        rw [returns_linkGained hlive, state_levelsAccepted]; rfl
      have hrec : reclaims (linkGained (levelsAccepted s x b levels) x) x = true ↔ reclaims_ := by
        rw [reclaims_iff, linkGained_arb, linkGained_working]; rfl
      have snapshot {src : SourceState} {a : Arbiter}
          (h : Entered (levelsAccepted s x b levels) (acquire (levelsAccepted s x b levels) x) src a) :
          Entered before (acquire (levelsAccepted s x b levels) x) src a := by
        refine ⟨h.1, fun ch hlo hhi => (h.2 ch hlo hhi).trans ?_⟩
        rw [contribution_levelsAccepted, ← hbuffer]
      refine ⟨fun h => ?_, fun hn h => ?_, fun hn hn' => ?_⟩
      · exact (acquire_returns hp' hlive (hret.mpr h)).imp_left snapshot
      · exact (acquire_reclaims hp' hlive (Bool.eq_false_iff.mpr fun he => hn (hret.mp he)) (hrec.mpr h)).imp_left snapshot
      · obtain ⟨hreports, hmerge, hother⟩ := acquire_keeps hp' hlive (Bool.eq_false_iff.mpr fun he => hn (hret.mp he))
          (Bool.eq_false_iff.mpr fun he => hn' (hrec.mp he))
        exact ⟨hreports, fun hm => snapshot (hmerge hm), hother⟩

end Sys2Proof.Machine
end

section
/-! The arbiter's step expiry and its requests (R21 to R23, R28, R29, R31 to R34, R90). -/

namespace Sys2Proof.Machine

/-! ## The step expiry (R29, R32 to R34) -/

/-- The console source moved to `src` with the elapsed count `n`, and the snapshot kept. -/
def sourceMoved (s : State) (src : SourceState) (n : Nat) : State :=
  { s with arb := { s.arb with source := src, elapsed := n } }

theorem levelToward_zero (start w : Nat) : levelToward start 0 w = start - start * w / 4096 := by
  unfold levelToward
  split
  · simp [show start = 0 by omega]
  · rw [Nat.sub_zero]

section Step

variable {s : State}

theorem handoverDue_iff (hp : s.phase ≠ .inReset) :
    handoverDue s = true ↔ s.arb.source = .handover ∧ s.working.handoverTime ≤ bump s.arb.elapsed := by
  simp [handoverDue, hp]

theorem lossFadeDue_iff (hp : s.phase ≠ .inReset) : lossFadeDue s = true ↔
    s.arb.source = .hold ∧ s.working.lossFadeDelay ≠ 0 ∧ s.working.lossFadeDelay ≤ bump s.arb.elapsed := by
  simp [lossFadeDue, hp, and_assoc]

theorem darkDue_iff (hp : s.phase ≠ .inReset) :
    darkDue s = true ↔ s.arb.source = .lossFade ∧ s.working.lossFadeTime ≤ bump s.arb.elapsed := by
  simp [darkDue, hp]

theorem arbiterTick_still (hsrc : s.arb.source = .normal ∨ s.arb.source = .dark ∨ s.arb.source = .off) :
    arbiterTick s = s := by
  unfold arbiterTick
  split
  · rfl
  · rcases hsrc with h | h | h <;> simp [h]

theorem arbiterTick_handover (hp : s.phase ≠ .inReset) (hsrc : s.arb.source = .handover) : arbiterTick s =
    sourceMoved s (if handoverDue s then handoverDone s.working.sourceMode else .handover) (bump s.arb.elapsed) := by
  simp only [arbiterTick, if_neg hp, hsrc]
  split <;> simp [sourceMoved]

theorem arbiterTick_hold (hp : s.phase ≠ .inReset) (hsrc : s.arb.source = .hold) : arbiterTick s =
    if lossFadeDue s then sourceMoved s (if s.working.lossFadeTime = 0 then .dark else .lossFade) 0
    else sourceMoved s .hold (bump s.arb.elapsed) := by
  simp only [arbiterTick, if_neg hp, hsrc]
  split <;> simp [sourceMoved, enterLossFade]

theorem arbiterTick_lossFade (hp : s.phase ≠ .inReset) (hsrc : s.arb.source = .lossFade) : arbiterTick s =
    sourceMoved s (if darkDue s then .dark else .lossFade) (bump s.arb.elapsed) := by
  simp only [arbiterTick, if_neg hp, hsrc]
  split <;> simp [sourceMoved]

/-- An event that a step expiry brings about is that step expiry (log 6). -/
theorem exec_event {i event : Instr} {due : Bool} (hdue : due = true)
    (hevent : exec event s = if due then .next (arbiterTick s) else .next s) (hi : i ∈ [Instr.arbiterStep, event]) :
    exec i s = .next (arbiterTick s) := by
  rcases List.mem_cons.mp hi with rfl | hi
  · rfl
  · rw [List.mem_singleton.mp hi, hevent, if_pos hdue]

end Step

/-- Settles O14: the contribution by the console-source state, and the step expiry by the source state and by whether its
event is due. -/
theorem arbiterStepCounts : Obligations.ArbiterStepCounts := by
  intro s
  refine ⟨fun ch => ?_, fun hp => ?_⟩
  · intro target held fraction
    have htarget : modeTarget s ch = target := by
      dsimp only [target]
      unfold modeTarget
      cases s.working.sourceMode <;> simp [widen, isLive]
    unfold contribution
    cases s.arb.source
    case normal => exact htarget
    case handover => rw [htarget]; rfl
    case lossFade => exact levelToward_zero _ _
    all_goals rfl
  · intro e moved handoverEnds holdEnds lossFadeEnds
    have handover : handoverDue s = true ↔ handoverEnds := handoverDue_iff hp
    have hold : lossFadeDue s = true ↔ holdEnds := lossFadeDue_iff hp
    have lossFade : darkDue s = true ↔ lossFadeEnds := darkDue_iff hp
    have step : exec .arbiterStep s = .next (arbiterTick s) := rfl
    refine ⟨fun hsrc => ?_, fun hsrc hn => ?_, fun hsrc hn => ?_, fun hsrc hn => ?_, fun hends i hi => ?_,
      fun hends i hi => ?_, fun hends i hi => ?_, fun hn => ?_, fun hn => ?_, fun hn => ?_⟩
    · rw [step, arbiterTick_still hsrc]
    · rw [step, arbiterTick_handover hp hsrc, if_neg (handover.not.mpr hn)]; rfl
    · rw [step, arbiterTick_hold hp hsrc, if_neg (hold.not.mpr hn)]; rfl
    · rw [step, arbiterTick_lossFade hp hsrc, if_neg (lossFade.not.mpr hn)]; rfl
    · have due := handover.mpr hends
      rw [exec_event due rfl hi, arbiterTick_handover hp hends.1, if_pos due]; rfl
    · have due := hold.mpr hends
      rw [exec_event due rfl hi, arbiterTick_hold hp hends.1, if_pos due]; rfl
    · have due := lossFade.mpr hends
      rw [exec_event due rfl hi, arbiterTick_lossFade hp hends.1, if_pos due]; rfl
    · exact if_neg (handover.not.mpr hn)
    · exact if_neg (hold.not.mpr hn)
    · exact if_neg (lossFade.not.mpr hn)

/-! ## LOCK and UNLOCK (R23) -/

theorem exec_lock {s : State} {r : Req} (h : takenFromOwner s r) :
    exec (.lock r) s = .next (answered (lockControl s).1 r 0x41 (lockControl s).2 []) :=
  congrArg _ (takeRequest_owner h rfl)

theorem exec_unlock {s : State} {r : Req} (h : takenFromOwner s r) :
    exec (.unlock r) s = .next (answered (unlockControl s).1 r 0x42 .ok []) :=
  congrArg _ (takeRequest_owner h rfl)

/-- Settles O16: LOCK by whether the owner's link is LIVE. -/
theorem lockAndUnlock : Obligations.LockAndUnlock := by
  intro s r h
  rw [exec_lock h, exec_unlock h]
  refine ⟨fun hlive => ?_, fun hdead => ?_, rfl⟩
  · rw [lockControl, if_pos (isLive_iff.mpr hlive)]
  · rw [lockControl, if_neg (isLive_iff.not.mpr hdead)]

/-! ## A change of owner (R21, R145) -/

theorem PerLink.put_get_self {α : Type} (v : PerLink α) (x : Link) : v.put x (v.get x) = v := by
  cases x <;> rfl

/-- A frame start with no reply and no report leaves the IDLE transmitter as it is. -/
theorem startFrame_of_nothing {s : State} {x : Link} (htx : s.tx.get x = none) (hreplies : s.replies.get x = [])
    (hreports : s.reports = []) : startFrame s x = s := by
  rcases startFrame_cases s x with ⟨_, _, h, -⟩ | ⟨_, _, -, -, h, -⟩ | ⟨-, -, h⟩
  · simp [h] at hreplies
  · simp [h] at hreports
  · rw [h, ← htx, PerLink.put_get_self]

/-- An IDLE transmitter of the owner's line begins the oldest report where no reply waits. -/
theorem startIfIdle_of_report {s : State} {x : Link} {q : Report} {rest : List Report} (hp : s.phase = .running)
    (htx : s.tx.get x = none) (hreplies : s.replies.get x = []) (howner : s.arb.owner = x)
    (hreports : s.reports = q :: rest) :
    startIfIdle s x =
      { s with reports := rest, tx := s.tx.put x (some (linkFrame 0x40 (reportPayload s.working.unit q))) } := by
  rw [startIfIdle_of_idle hp htx]
  simp [startFrame, hreplies, howner, hreports]

/-- A report offered just after the owner's IDLE line has looked for a frame, where no reply waits: the first of the waiting
reports and the new one starts there, and the others wait. -/
theorem offerReport_startIfIdle {s : State} {x : Link} {k : ReportKind} {q : Report} {rest : List Report}
    (hp : s.phase = .running) (howner : s.arb.owner = x) (htx : s.tx.get x = none) (hreplies : s.replies.get x = [])
    (hroom : s.reports.length ≤ 32) (hq : s.reports ++ [⟨k, s.dropMark⟩] = q :: rest) :
    offerReport (startIfIdle s x) k =
      { s with dropMark := false, reports := rest,
               tx := s.tx.put x (some (linkFrame 0x40 (reportPayload s.working.unit q))) } := by
  subst howner
  cases hreports : s.reports with
  | nil =>
    obtain ⟨rfl, rfl⟩ : _ = q ∧ [] = rest := by simpa [hreports] using hq
    rw [startIfIdle_of_idle hp htx, startFrame_of_nothing htx hreplies hreports, offerReport,
      enqueueReport_of_room _ (by simp [hreports])]
    exact startIfIdle_of_report (s := { s with reports := s.reports ++ [⟨k, s.dropMark⟩], dropMark := false }) hp htx
      hreplies rfl (by rw [hreports]; rfl)
  | cons q' older =>
    obtain ⟨rfl, rfl⟩ : q' = q ∧ older ++ [_] = rest := by simpa [hreports] using hq
    have hroom' : older.length < 32 := by rw [hreports, List.length_cons] at hroom; omega
    rw [startIfIdle_of_report hp htx hreplies rfl hreports, offerReport_of_busy _ (.inr (by simp)),
      enqueueReport_of_room _ hroom']

/-- Where the new owner's line is IDLE without a reply, the first of the waiting reports and the HANDOVER report starts there
(log 23). -/
theorem changeOwner_idle {s : State} {x : Link} {c : Cause} {q : Report} {rest : List Report} (hp : s.phase = .running)
    (htx : s.tx.get x = none) (hreplies : s.replies.get x = []) (hroom : s.reports.length ≤ 32)
    (hq : s.reports ++ [⟨.handover s.arb.owner x c, s.dropMark⟩] = q :: rest) : changeOwner s x c =
      { s with arb := { s.arb with owner := x, lock := false, holdoff := true }, dropMark := false, reports := rest,
               tx := s.tx.put x (some (linkFrame 0x40 (reportPayload s.working.unit q))) } :=
  offerReport_startIfIdle (s := { s with arb := { s.arb with owner := x, lock := false, holdoff := true } }) hp rfl htx
    hreplies hroom hq

/-! ## TAKE (R22) -/

/-- What a taken TAKE leaves before its reply. -/
def afterTake (s : State) (x : Link) : State := trigger (changeOwner s x .take) (snapshotNow s)

section Take

variable {s : State} {x : Link}

theorem exec_take {r : Req} (h : taken s r) :
    exec (.take r) s = .next (answered (takeControl s r.link).1 r 0x40 (takeControl s r.link).2 []) :=
  congrArg _ (takeRequest_either h rfl rfl)

theorem afterTake_entered (hlive : isLive s x = true) : Entered s (afterTake s x) (handoverTo s.working)
    { s.arb with owner := x, lock := false, holdoff := true } := by
  refine entered_of_arb ?_
  rw [afterTake, trigger_arb_of_present _ (consolePresent_of_live ?_), changeOwner_arb, changeOwner_working]
  rw [changeOwner_arb, isLive_changeOwner, hlive]

theorem afterTake_frame (s : State) (x : Link) : afterTake s x =
    { s with
      arb := (afterTake s x).arb, reports := (afterTake s x).reports, dropMark := (afterTake s x).dropMark,
      tx := (afterTake s x).tx, replies := (afterTake s x).replies } := by
  unfold afterTake
  rw [trigger_frame, changeOwner_frame]

/-- Where both return lines are sending and the queue has room, the HANDOVER report waits. -/
theorem afterTake_busy (hbusy : ∀ y, s.tx.get y ≠ none) (hroom : s.reports.length < 32) : afterTake s x =
    { s with arb := (afterTake s x).arb, dropMark := false,
             reports := s.reports ++ [⟨.handover s.arb.owner x .take, s.dropMark⟩] } := by
  have hview := (trigger_queueView (changeOwner s x .take) (snapshotNow s)).trans
    (offers_changeOwner x .take rfl hbusy hroom)
  obtain ⟨htx, hreplies, hreports, hmark⟩ := QueueView.mk.inj hview
  rw [afterTake_frame]
  simp only [afterTake, htx, hreplies, hreports, hmark]

end Take

/-- Settles O15, condition by condition of R22's table, and for a taken TAKE by what the return lines do. -/
theorem takeIsDecided : Obligations.TakeIsDecided := by
  intro s r h refused
  rw [exec_take h, takeControl]
  split
  · rfl
  split
  · rfl
  split
  · rfl
  split
  · rfl
  split
  · rename_i hdead
    rw [if_pos (by simpa [isLive] using hdead)]
  · rename_i hlive
    have hlive' : isLive s r.link = true := isLive_iff.mpr (not_not.mp hlive)
    rw [if_neg (by simp [hlive'])]
    obtain ⟨harb, hsnap⟩ := afterTake_entered hlive'
    refine ⟨afterTake s r.link, rfl, by rw [harb], by rw [harb], by rw [harb], fun hne => ?_, fun heq => ?_, hsnap,
      afterTake_frame s r.link, afterTake_busy, fun htx hreplies hroom q rest hq => ?_⟩
    · rw [harb]; exact ⟨if_pos hne, rfl⟩
    · rw [harb]; exact if_neg (not_not.mpr heq)
    · have howner := changeOwner_idle h.1 htx hreplies hroom hq
      rw [afterTake, trigger_frame, howner]

end Sys2Proof.Machine
end

section
/-! The WRITE of one word at a setting, a curve point, a READ_ONLY word and an unmapped address (R19, R53, R99, R115, R123,
R138 to R140, R166). -/

namespace Sys2Proof.Machine

/-! ## One word offered (R138) -/

section Word

variable {s u : State} {r : Req} {a : Nat} {v : Word}

theorem exec_write_word (v : Word) (h : takenFromOwner s r) :
    exec (.write r [v]) s = .next (takeWordWrite s r (s.tableIndex.get r.link) v) := by
  rw [takeWordWrite_owner _ _ h]
  exact congrArg _ (takeRequest_owner h rfl)

/-- What the arbiter makes of the state `u` that the `n` words taken from address `a` on leave (R19, R35, R36). -/
def actedOn (s u : State) (a n : Nat) : State :=
  arbiterWritten u (u.working.sourceMode != s.working.sourceMode) (a ≤ 1 && 1 < a + n) (snapshotNow s)

theorem actedOn_quiet {n : Nat} (hm : u.working.sourceMode = s.working.sourceMode) (ha : ¬ (a ≤ 1 ∧ 1 < a + n)) :
    actedOn s u a n = u := by
  have hp : (decide (a ≤ 1) && decide (1 < a + n)) = false := by simpa using ha
  simp [actedOn, hm, hp, arbiterWritten]

theorem actedOn_mode (hm : u.working.sourceMode ≠ s.working.sourceMode) :
    actedOn s u 0 1 = trigger (placeOwner u) (snapshotNow s) := by
  simp [actedOn, hm, arbiterWritten]

theorem actedOn_preferred (hm : u.working.sourceMode = s.working.sourceMode) : actedOn s u 1 1 =
    if preferredMoves u then trigger (changeOwner u u.working.preferred .reclaim) (snapshotNow s) else u := by
  simp only [actedOn, hm, arbiterWritten]
  cases hmoves : preferredMoves u <;> simp [hmoves]

/-- Where neither the source mode nor the preferred link is written the arbiter does not act. -/
theorem arbiterWritten_ite (s : State) (newMode newPreferred : Bool) (k : Table Nat) :
    (if newMode || newPreferred then arbiterWritten s newMode newPreferred k else s) =
      arbiterWritten s newMode newPreferred k := by
  cases newMode <;> cases newPreferred <;> rfl

/-- A WRITE is its words, the arbiter's act on them, and the index at the word after the last taken (R138). -/
theorem writeFrom_of_words {x : Link} {ws : List Word} {n : Nat} {res : Result} (hw : writeWords s a ws = (u, n, res)) :
    writeFrom s x a ws =
      ({ actedOn s u a n with tableIndex := (actedOn s u a n).tableIndex.put x ((a + n) % 0x1000000) }, n, res) := by
  simp only [writeFrom, hw, arbiterWritten_ite]
  rfl

theorem writeFrom_refused {x : Link} {res : Result} (ha : a < 0x1000000) (hw : writeWord s a v = .refused res s) :
    writeFrom s x a [v] = ({ s with tableIndex := s.tableIndex.put x a }, 0, res) := by
  have hwords : writeWords s a [v] = (s, 0, res) := by simp [writeWords, hw]
  rw [writeFrom_of_words hwords, actedOn_quiet rfl (by omega), Nat.add_zero, Nat.mod_eq_of_lt ha]

theorem writeFrom_taken {x : Link} (hw : writeWord s a v = .taken u) : writeFrom s x a [v] =
    ({ actedOn s u a 1 with tableIndex := (actedOn s u a 1).tableIndex.put x (a + 1) }, 1, .ok) := by
  have hlt := lt_of_taken hw
  have hwords : writeWords s a [v] = (u, 1, .ok) := by simp [writeWords, hw]
  rw [writeFrom_of_words hwords, Nat.mod_eq_of_lt (by omega)]

/-- A WRITE of one word that is refused. -/
theorem takeWordWrite_refused {res : Result} (h : takenFromOwner s r) (ha : a < 0x1000000)
    (hw : writeWord s a v = .refused res s) :
    takeWordWrite s r a v = answered { s with tableIndex := s.tableIndex.put r.link a } r 0x02 res [0] := by
  rw [takeWordWrite_owner _ _ h, writeFrom_refused ha hw]
  rfl

/-- A WRITE of one word that is taken, and what the arbiter makes of it. -/
theorem takeWordWrite_taken {t : State} (h : takenFromOwner s r) (hw : writeWord s a v = .taken u)
    (hact : actedOn s u a 1 = t) (hindex : t.tableIndex = s.tableIndex) :
    takeWordWrite s r a v = answered { t with tableIndex := s.tableIndex.put r.link (a + 1) } r 0x02 .ok [1] := by
  rw [takeWordWrite_owner _ _ h, writeFrom_taken hw, hact, hindex]
  rfl

/-- A WRITE of one word that is taken and does not concern the arbiter. -/
theorem takeWordWrite_quiet (h : takenFromOwner s r) (hw : writeWord s a v = .taken u)
    (hm : u.working.sourceMode = s.working.sourceMode) (ha : a ≠ 1) (hindex : u.tableIndex = s.tableIndex) :
    takeWordWrite s r a v = answered { u with tableIndex := s.tableIndex.put r.link (a + 1) } r 0x02 .ok [1] :=
  takeWordWrite_taken h hw (actedOn_quiet hm (by omega)) hindex

/-- A WRITE of one word at its link's index that is refused leaves all but the reply as it was. -/
theorem exec_write_refused {res : Result} (h : takenFromOwner s r) (ha : s.tableIndex.get r.link < 0x1000000)
    (hw : writeWord s (s.tableIndex.get r.link) v = .refused res s) :
    exec (.write r [v]) s = .next (answered s r 0x02 res [0]) := by
  rw [exec_write_word v h, takeWordWrite_refused h ha hw, PerLink.put_get_self]

end Word

/-! ## The places of the table space -/

theorem placeOf_global {i : Nat} (h : i < 28) : placeOf i = .global i := if_pos (by omega)

theorem placeOf_status {a : Nat} (h : 0x1000 ≤ a ∧ a ≤ 0x1049) : placeOf a = .status (a - 0x1000) := by
  unfold placeOf
  rw [if_neg (by omega), if_pos h]

theorem placeOf_playback {a : Nat} (h : 0x2000 ≤ a ∧ a ≤ 0x20FF) :
    placeOf a = .playback ⟨(a - 0x2000) / 16, by omega⟩ ((a - 0x2000) % 16) := by
  unfold placeOf
  rw [if_neg (by omega), if_neg (by omega), dif_pos h]

theorem placeOf_playbackAddr (p : PlaybackNo) {i : Nat} (h : i < 16) : placeOf (playbackAddr p i) = .playback p i := by
  have hp := p.isLt
  have hplace : (playbackAddr p i - 0x2000) / 16 = p.val := by simp only [playbackAddr]; omega
  have hoffset : (playbackAddr p i - 0x2000) % 16 = i := by simp only [playbackAddr]; omega
  rw [placeOf_playback (by simp only [playbackAddr]; omega)]
  simp only [hplace, hoffset]

theorem placeOf_curve {a : Nat} (h : 0x3000 ≤ a ∧ a ≤ 0x3107) :
    placeOf a = .curve ((a - 0x3000) / 33) ((a - 0x3000) % 33) := by
  unfold placeOf
  rw [if_neg (by omega), if_neg (by omega), dif_neg (by omega), if_neg (by omega), if_pos h]

theorem placeOf_curveAddr {g j : Nat} (hg : g ≤ 7) (hj : j < 33) : placeOf (curveAddr g j) = .curve g j := by
  have hplace : (curveAddr g j - 0x3000) / 33 = g := by simp only [curveAddr]; omega
  have hoffset : (curveAddr g j - 0x3000) % 33 = j := by simp only [curveAddr]; omega
  rw [placeOf_curve (by simp only [curveAddr]; omega), hplace, hoffset]

theorem placeOf_liveWindow {a : Nat} (h : 0x4000 ≤ a ∧ a ≤ 0x4A3F) : placeOf a = .liveWindow (a - 0x4000 + 3) := by
  unfold placeOf
  rw [if_neg (by omega), if_neg (by omega), dif_neg (by omega), if_neg (by omega), if_neg (by omega), if_pos h]

theorem placeOf_unmapped {a : Nat} (h : (0x1C ≤ a ∧ a < 0x1000) ∨ (0x104A ≤ a ∧ a < 0x2000) ∨ (0x2101 ≤ a ∧ a < 0x3000) ∨
    (0x3108 ≤ a ∧ a < 0x4000) ∨ (0x4A40 ≤ a ∧ a < 0x100000) ∨ (0x113743 ≤ a ∧ a < 0x140000) ∨ 0x153743 ≤ a) :
    placeOf a = .unmapped := by
  unfold placeOf
  iterate 2 rw [if_neg (by omega)]
  rw [dif_neg (by omega)]
  iterate 5 rw [if_neg (by omega)]

/-! ## Global settings (R19, R76, R99, R123, R139) -/

section Global

variable {s : State} {i : Nat} {v w : Word}

theorem writeWord_global_taken (hi : i < 28) (hw : globalCheck i v = some w) :
    writeWord s i v = .taken (takeGlobal s i w) := by
  simp [writeWord, placeOf_global hi, hw]

theorem writeWord_global_refused (hi : i < 28) (hw : globalCheck i v = none) : writeWord s i v = .refused .range s := by
  simp [writeWord, placeOf_global hi, hw]

/-- A state with a global setting's word rewritten and its working copy loaded. -/
def settingWritten (s : State) (i : Nat) (v : Word) : State :=
  { rewrite s i v with working := loadSetting s.working i v }

/-- Other than at a line's enable, a setting taken is its word and its working copy. -/
theorem takeGlobal_of_not_enable (h : i < 12 ∨ i % 4 ≠ 0) : takeGlobal s i v = settingWritten s i v := dif_neg (by omega)

theorem loadSetting_sourceMode {w : Working} (h : i ≠ 0) : (loadSetting w i v).sourceMode = w.sourceMode := by
  unfold loadSetting
  split
  case h_1 => exact absurd rfl h
  case h_13 => split <;> rfl
  all_goals rfl

/-- The value that a global setting takes of an offered word, or `none` where it is refused: clamped or checked by its range. -/
def settingTaken (i : Nat) (v : Word) : Option Nat :=
  let clamp (lo hi : Nat) : Option Nat := some (max lo (min hi v.toNat))
  let only (lo hi : Nat) : Option Nat := if lo ≤ v.toNat ∧ v.toNat ≤ hi then some v.toNat else none
  if i = 2 then clamp 0 1 else if i = 3 then clamp 0 1000 else if i = 4 then clamp 10 1000
  else if i = 5 ∨ i = 6 then some v.toNat else if i = 7 then clamp 0 3 else if i = 8 then clamp 0 255
  else if i = 9 then only 1 15 else if i = 10 then only 1 16 else if i = 11 then clamp 0 1
  else if i % 4 = 1 then clamp 1 256 else if i % 4 = 2 then only 0 1 else clamp 1 10

theorem wordOf_toNat (v : Word) : wordOf v.toNat = v := BitVec.ofNat_toNat 16 v

theorem inRange_eq (lo hi : Nat) (v : Word) :
    inRange lo hi v = (if lo ≤ v.toNat ∧ v.toNat ≤ hi then some v.toNat else none).map wordOf := by
  unfold inRange
  split <;> simp [wordOf_toNat]

/-- The check of a line's setting, by its place among the line's four. -/
theorem globalCheck_line (hi : 12 ≤ i) : globalCheck i v =
    if i % 4 = 0 then some (clampTo 0 1 v) else if i % 4 = 1 then some (clampTo 1 256 v)
    else if i % 4 = 2 then inRange 0 1 v else some (clampTo 1 10 v) := by
  obtain ⟨n, rfl⟩ := Nat.exists_eq_add_of_le' hi
  have hlt : (n + 12) % 4 < 4 := Nat.mod_lt _ (by decide)
  unfold globalCheck
  interval_cases (n + 12) % 4 <;> rfl

theorem globalCheck_eq (hlo : 2 ≤ i) (h : i < 12 ∨ i % 4 ≠ 0) : globalCheck i v = (settingTaken i v).map wordOf := by
  rcases Nat.lt_or_ge i 12 with hi | hi
  · interval_cases i <;> simp [globalCheck, settingTaken, clampTo, inRange_eq, wordOf_toNat]
  · have hne : i % 4 ≠ 0 := h.resolve_left (by omega)
    rw [globalCheck_line hi, if_neg hne]
    have hline : settingTaken i v = if i % 4 = 1 then some (max 1 (min 256 v.toNat))
        else if i % 4 = 2 then (if 0 ≤ v.toNat ∧ v.toNat ≤ 1 then some v.toNat else none)
        else some (max 1 (min 10 v.toNat)) := by
      unfold settingTaken
      iterate 9 rw [if_neg (by omega)]
    rw [hline]
    split
    · rfl
    split
    · exact inRange_eq 0 1 v
    · rfl

/-- A WRITE of one word at a global setting that the arbiter and the lines do not act on. -/
theorem takeWordWrite_setting {r : Req} (h : takenFromOwner s r) (hlo : 2 ≤ i) (hhi : i < 28) (hi : i < 12 ∨ i % 4 ≠ 0)
    (hw : globalCheck i v = some w) : takeWordWrite s r i v =
      answered { settingWritten s i w with tableIndex := s.tableIndex.put r.link (i + 1) } r 0x02 .ok [1] := by
  refine takeWordWrite_quiet h ((writeWord_global_taken hhi hw).trans ?_) (loadSetting_sourceMode (by omega)) (by omega) rfl
  rw [takeGlobal_of_not_enable hi]

end Global

/-! ## Playback settings, curve points and READ_ONLY words (R53, R115, R140) -/

section Places

variable {s : State} {a : Nat} {v : Word}

theorem writePlayback_setting {p : PlaybackNo} {i : Nat} (hlo : 1 ≤ i) (hhi : i ≤ 4) : writePlayback s p i v =
    .taken (rewrite s (playbackAddr p i)
      (if i = 1 then wordOf (min 3 v.toNat) else if i = 2 then wordOf (min 255 v.toNat) else v)) := by
  interval_cases i <;> simp [writePlayback, clampTo]

theorem writePlayback_readOnly {p : PlaybackNo} {i : Nat} (h : 5 ≤ i) : writePlayback s p i v = .refused .readOnly s := by
  obtain ⟨n, rfl⟩ := Nat.exists_eq_add_of_le' h
  rfl

theorem writeStatus_readOnly {i : Nat} (h : i < 2 ∨ 23 < i) : writeStatus s i = .refused .readOnly s := by
  unfold writeStatus
  rw [if_neg (by omega), if_neg (by omega), dif_neg (by omega)]

theorem writeWord_playback {p : PlaybackNo} {i : Nat} (hlo : 1 ≤ i) (hhi : i ≤ 4) : writeWord s (playbackAddr p i) v =
    .taken (rewrite s (playbackAddr p i)
      (if i = 1 then wordOf (min 3 v.toNat) else if i = 2 then wordOf (min 255 v.toNat) else v)) := by
  simp only [writeWord, placeOf_playbackAddr p (show i < 16 by omega), writePlayback_setting hlo hhi]

theorem writeWord_curve {g j : Nat} (hlo : 1 ≤ g) (hhi : g ≤ 7) (hj : j < 33) :
    writeWord s (curveAddr g j) v = .taken (rewrite s (curveAddr g j) v) := by
  simp only [writeWord, placeOf_curveAddr hhi hj, if_neg (show g ≠ 0 by omega)]

theorem writeWord_readOnly (h : (0x1000 ≤ a ∧ a ≤ 0x1001) ∨ (0x1018 ≤ a ∧ a ≤ 0x1049) ∨
    (0x2000 ≤ a ∧ a ≤ 0x20FF ∧ 5 ≤ a % 16) ∨ a = 0x2100 ∨ (0x3000 ≤ a ∧ a ≤ 0x3020) ∨ (0x4000 ≤ a ∧ a ≤ 0x4A3F)) :
    writeWord s a v = .refused .readOnly s := by
  unfold writeWord
  rcases h with h | h | ⟨hlo, hhi, h⟩ | rfl | h | h
  · rw [placeOf_status (by omega)]; exact writeStatus_readOnly (by omega)
  · rw [placeOf_status (by omega)]; exact writeStatus_readOnly (by omega)
  · rw [placeOf_playback ⟨hlo, hhi⟩]; exact writePlayback_readOnly (by omega)
  · rfl
  · rw [placeOf_curve (by omega)]; exact if_pos (by omega)
  · rw [placeOf_liveWindow h]

end Places

/-- Settles O22, area by area of the table space; a global setting by the check of its word. -/
theorem settingIsWritten : Obligations.SettingIsWritten := by
  intro s r v h a put
  refine ⟨fun i hlo hhi hi => ?_, fun p i hlo hhi ha => ?_, fun g j hlo hhi hj ha => ?_, fun ha => ?_, fun ha => ?_⟩
  · intro clamp only taken? c hc
    have hcheck : globalCheck i v = taken?.map wordOf := globalCheck_eq hlo hi
    have hexec : exec c s = .next (takeWordWrite s r i v) := by
      rcases hc with ⟨rfl, ha⟩ | ⟨rfl, rfl⟩
      · rw [exec_write_word v h, show s.tableIndex.get r.link = i from ha]
      · rfl
    rw [hexec]
    cases htaken : taken? with
    | none =>
      rw [htaken] at hcheck
      exact congrArg _ (takeWordWrite_refused h (by omega) (writeWord_global_refused hhi hcheck))
    | some w =>
      rw [htaken] at hcheck
      exact congrArg _ (takeWordWrite_setting h hlo hhi hi hcheck)
  · rw [exec_write_word v h]
    have hword := writeWord_playback (s := s) (p := p) (v := v) hlo hhi
    rw [show playbackAddr p i = a from ha.symm] at hword
    exact congrArg _ (takeWordWrite_quiet h hword rfl (by omega) rfl)
  · rw [exec_write_word v h]
    have hword := writeWord_curve (s := s) (v := v) hlo hhi hj
    rw [show curveAddr g j = a from ha.symm] at hword
    exact congrArg _ (takeWordWrite_quiet h hword rfl (by omega) rfl)
  · exact exec_write_refused h (by omega) (writeWord_readOnly ha)
  · exact exec_write_refused h (by omega) (by rw [writeWord, placeOf_unmapped (by omega)])

end Sys2Proof.Machine
end

section
/-! The WRITE of the source mode and of the preferred link (R19, R21, R31, R35, R36). -/

namespace Sys2Proof.Machine

/-! ## The source mode (R19) -/

theorem sourceModeOf_eq_isolated {v : Word} : sourceModeOf v.toNat = .isolated ↔ v = 0 := by
  rw [BitVec.toNat_eq]
  unfold sourceModeOf
  split <;> simp_all

theorem sourceModeOf_eq_sole {v : Word} : sourceModeOf v.toNat = .sole ↔ v = 1 := by
  rw [BitVec.toNat_eq]
  unfold sourceModeOf
  split <;> simp_all

theorem sourceModeOf_eq_merge {v : Word} : sourceModeOf v.toNat = .merge ↔ v = 3 := by
  rw [BitVec.toNat_eq]
  unfold sourceModeOf
  split <;> simp_all

theorem consolePresent_iff {s : State} : consolePresent s = true ↔
    if s.working.sourceMode = .merge then (linkOf s .a).state = .live ∨ (linkOf s .b).state = .live
    else (linkOf s s.arb.owner).state = .live := by
  unfold consolePresent
  cases s.working.sourceMode <;> simp [isLive]

/-! ## The trigger (R31, R33) -/

/-- A trigger starts a handover in ISOLATED and where the console is present. -/
theorem trigger_arb_of_handover {s : State} (k : Table Nat)
    (h : s.working.sourceMode = .isolated ∨ consolePresent s = true) :
    (trigger s k).arb = { s.arb with source := handoverTo s.working, snapshot := k, elapsed := 0 } := by
  unfold trigger handoverTo handoverDone
  rw [if_pos h]
  split <;> simp_all

/-- Without a console a source that waits for one stays as it is, and another enters HOLD. -/
theorem trigger_of_absent {s : State} (k : Table Nat) (h : ¬ (s.working.sourceMode = .isolated ∨ consolePresent s = true)) :
    trigger s k = if s.arb.source = .hold ∨ s.arb.source = .lossFade ∨ s.arb.source = .dark then s else enterHold s k := by
  unfold trigger
  rw [if_neg h]
  cases s.arb.source <;> rfl

theorem Entered.source {before t : State} {src : SourceState} {a : Arbiter} (h : Entered before t src a) :
    t.arb.source = src ∧ t.arb.elapsed = 0 ∧ ∀ ch, 1 ≤ ch → ch ≤ 512 → snapshotLevel t ch = contribution before ch :=
  ⟨by rw [h.1], by rw [h.1], h.2⟩

/-! ## Ownership placed by a WRITE (R35, R36) -/

/-- Ownership given to a link where it does not have it. -/
def ownerMoved (s : State) (x : Link) (c : Cause) : State := if s.arb.owner = x then s else changeOwner s x c

/-- Where a new source mode places ownership (R35). -/
def placedOwner (s : State) : Link :=
  if s.working.sourceMode = .sole then s.working.preferred
  else if (linkOf s s.arb.owner).state ≠ .live ∧ (linkOf s (otherLink s.arb.owner)).state = .live then otherLink s.arb.owner
  else s.arb.owner

/-- The cause reported for it. -/
def placeCause (m : SourceMode) : Cause := if m = .sole then .reclaim else .ret

theorem placeOwner_eq (s : State) : placeOwner s = ownerMoved s (placedOwner s) (placeCause s.working.sourceMode) := by
  have hother : s.arb.owner ≠ otherLink s.arb.owner := (otherLink_ne _).symm
  have hlive (x : Link) : isLive s x = true ↔ (linkOf s x).state = .live := isLive_iff
  unfold placeOwner ownerMoved placedOwner placeCause
  cases s.working.sourceMode
  case sole => rfl
  all_goals
    simp only [reduceCtorEq, if_false, Bool.and_eq_true, Bool.not_eq_true', ← Bool.not_eq_true, hlive]
    split
    · rfl
    · exact (if_pos rfl).symm

theorem preferredMoves_iff {s : State} :
    preferredMoves s = true ↔ s.working.sourceMode = .sole ∧ s.arb.owner ≠ s.working.preferred := by
  simp [preferredMoves]

/-- `t` is `s` but for the arbiter's own fields, the reports and the return lines with their replies. -/
def ArbiterActs (s t : State) : Prop :=
  t = { s with arb := t.arb, replies := t.replies, tx := t.tx, reports := t.reports, dropMark := t.dropMark }

theorem ArbiterActs.refl (s : State) : ArbiterActs s s := rfl

theorem ArbiterActs.trans {s t u : State} (h : ArbiterActs s t) (h' : ArbiterActs t u) : ArbiterActs s u := by
  unfold ArbiterActs at *
  rw [h', h]

section Moved

variable {s u : State} {x : Link} {c : Cause}

theorem ownerMoved_of_owner (h : u.arb.owner = x) : ownerMoved u x c = u := if_pos h

theorem ownerMoved_of_ne (h : u.arb.owner ≠ x) : ownerMoved u x c = changeOwner u x c := if_neg h

theorem ownerMoved_arb (u : State) (x : Link) (c : Cause) : (ownerMoved u x c).arb =
    if u.arb.owner = x then u.arb else { u.arb with owner := x, lock := false, holdoff := true } := by
  unfold ownerMoved
  split
  · rfl
  · exact changeOwner_arb u x c

theorem ownerMoved_owner (u : State) (x : Link) (c : Cause) : (ownerMoved u x c).arb.owner = x := by
  rw [ownerMoved_arb]
  split
  · assumption
  · rfl

theorem arbiterActs_ownerMoved (u : State) (x : Link) (c : Cause) : ArbiterActs u (ownerMoved u x c) := by
  unfold ownerMoved
  split
  · exact .refl u
  · exact changeOwner_frame u x c

theorem arbiterActs_trigger (u : State) (k : Table Nat) : ArbiterActs u (trigger u k) := by
  unfold ArbiterActs
  rw [trigger_frame]

/-- Whatever a WRITE has written, the arbiter changes its own fields, the reports and the return lines alone. -/
theorem arbiterActs_actedOn (s u : State) (a n : Nat) : ArbiterActs u (actedOn s u a n) := by
  have place (b : Bool) : ArbiterActs u (if b then placeOwner u else u) := by
    cases b
    · exact .refl u
    · exact placeOwner_eq u ▸ arbiterActs_ownerMoved u _ _
  have move (b : Bool) (v : State) : ArbiterActs v (if b then changeOwner v v.working.preferred .reclaim else v) := by
    cases b
    · exact .refl v
    · exact changeOwner_frame v _ _
  have finish (b : Bool) (v : State) : ArbiterActs v (if b then trigger v (snapshotNow s) else v) := by
    cases b
    · exact .refl v
    · exact arbiterActs_trigger v _
  exact ((place _).trans (move _ _)).trans (finish _ _)

/-- Ownership placed and its trigger resolved, with the contribution of `s` as the snapshot. -/
def ownershipWritten (s u : State) (x : Link) (c : Cause) : State := trigger (ownerMoved u x c) (snapshotNow s)

/-- A trigger moves the console source and nothing else of the arbiter. -/
theorem trigger_arb (u : State) (k : Table Nat) : (trigger u k).arb =
    { u.arb with source := (trigger u k).arb.source, snapshot := (trigger u k).arb.snapshot,
                 elapsed := (trigger u k).arb.elapsed } := by
  rcases trigger_cases u k with h | h | ⟨-, h⟩ <;> rw [h]
  rfl

theorem ownershipWritten_owner (s u : State) (x : Link) (c : Cause) : (ownershipWritten s u x c).arb.owner = x := by
  rw [ownershipWritten, trigger_arb]
  exact ownerMoved_owner u x c

theorem ownershipWritten_changed (h : u.arb.owner ≠ x) :
    (ownershipWritten s u x c).arb.lock = false ∧ (ownershipWritten s u x c).arb.holdoff = true := by
  rw [ownershipWritten, trigger_arb, ownerMoved_arb, if_neg h]
  exact ⟨rfl, rfl⟩

theorem ownershipWritten_kept (h : u.arb.owner = x) :
    (ownershipWritten s u x c).arb.lock = u.arb.lock ∧ (ownershipWritten s u x c).arb.holdoff = u.arb.holdoff ∧
      (ownershipWritten s u x c).reports = u.reports ∧ (ownershipWritten s u x c).dropMark = u.dropMark ∧
      (ownershipWritten s u x c).tx = u.tx ∧ (ownershipWritten s u x c).replies = u.replies := by
  unfold ownershipWritten
  rw [ownerMoved_of_owner h, trigger_arb, trigger_frame]
  exact ⟨rfl, rfl, rfl, rfl, rfl, rfl⟩

/-- Where both return lines are sending and the queue has room, the HANDOVER report waits. -/
theorem ownershipWritten_reports (h : u.arb.owner ≠ x) (hbusy : ∀ y, u.tx.get y ≠ none) (hroom : u.reports.length < 32) :
    (ownershipWritten s u x c).reports = u.reports ++ [⟨.handover u.arb.owner x c, u.dropMark⟩] ∧
      (ownershipWritten s u x c).dropMark = false ∧ (ownershipWritten s u x c).tx = u.tx ∧
      (ownershipWritten s u x c).replies = u.replies := by
  have hview : queueView (ownershipWritten s u x c) = queueView (changeOwner u x c) := by
    rw [ownershipWritten, trigger_queueView, ownerMoved_of_ne h]
  obtain ⟨htx, hreplies, hreports, hmark⟩ := QueueView.mk.inj (hview.trans (offers_changeOwner x c rfl hbusy hroom))
  exact ⟨hreports, hmark, htx, hreplies⟩

/-- Whether the trigger finds the console present, by the new owner. -/
theorem consolePresent_ownerMoved : consolePresent (ownerMoved u x c) = true ↔
    if u.working.sourceMode = .merge then (linkOf u .a).state = .live ∨ (linkOf u .b).state = .live
    else (linkOf u x).state = .live := by
  rw [consolePresent_iff, ownerMoved_owner, arbiterActs_ownerMoved u x c]
  rfl

theorem ownershipWritten_entered (h : u.working.sourceMode = .isolated ∨ consolePresent (ownerMoved u x c) = true) :
    Entered s (ownershipWritten s u x c) (handoverTo u.working) (ownerMoved u x c).arb := by
  have hw : (ownerMoved u x c).working = u.working := by rw [arbiterActs_ownerMoved u x c]
  refine entered_of_arb ?_
  rw [ownershipWritten, trigger_arb_of_handover _ (by rwa [hw]), hw]

theorem ownerMoved_source (u : State) (x : Link) (c : Cause) :
    (ownerMoved u x c).arb.source = u.arb.source ∧ (ownerMoved u x c).arb.elapsed = u.arb.elapsed ∧
      (ownerMoved u x c).arb.snapshot = u.arb.snapshot := by
  rw [ownerMoved_arb]
  split <;> exact ⟨rfl, rfl, rfl⟩

/-- Without a console a source that waits keeps its state, its count and its snapshot, and another enters HOLD. -/
theorem ownershipWritten_absent (h : ¬ (u.working.sourceMode = .isolated ∨ consolePresent (ownerMoved u x c) = true)) :
    let waits := u.arb.source = .hold ∨ u.arb.source = .lossFade ∨ u.arb.source = .dark
    (waits → (ownershipWritten s u x c).arb.source = u.arb.source ∧
      (ownershipWritten s u x c).arb.elapsed = u.arb.elapsed ∧ (ownershipWritten s u x c).arb.snapshot = u.arb.snapshot) ∧
      (¬ waits → Entered s (ownershipWritten s u x c) .hold (ownerMoved u x c).arb) := by
  have hw : (ownerMoved u x c).working = u.working := by rw [arbiterActs_ownerMoved u x c]
  obtain ⟨hsource, helapsed, hsnapshot⟩ := ownerMoved_source u x c
  have habsent := trigger_of_absent (s := ownerMoved u x c) (snapshotNow s) (by rwa [hw])
  rw [hsource] at habsent
  refine ⟨fun hwaits => ?_, fun hwaits => entered_of_arb ?_⟩
  · rw [ownershipWritten, habsent, if_pos hwaits]
    exact ⟨hsource, helapsed, hsnapshot⟩
  · rw [ownershipWritten, habsent, if_neg hwaits]; rfl

end Moved

/-! ## The two commands -/

/-- What the arbiter makes of a source mode written: nothing where it is the one in force (R35). -/
theorem actedOn_sourceMode (s u : State) : actedOn s u 0 1 =
    if u.working.sourceMode = s.working.sourceMode then u
    else ownershipWritten s u (placedOwner u) (placeCause u.working.sourceMode) := by
  split
  · rename_i h; exact actedOn_quiet h (by omega)
  · rename_i h; rw [actedOn_mode h, placeOwner_eq, ownershipWritten]

/-- What the arbiter makes of a preferred link written: in SOLE it becomes the owner (R36). -/
theorem actedOn_preferredLink {s u : State} (hm : u.working.sourceMode = s.working.sourceMode) : actedOn s u 1 1 =
    if u.working.sourceMode = .sole ∧ u.arb.owner ≠ u.working.preferred then
      ownershipWritten s u u.working.preferred .reclaim
    else u := by
  rw [actedOn_preferred hm]
  by_cases h : u.working.sourceMode = .sole ∧ u.arb.owner ≠ u.working.preferred
  · rw [if_pos h, if_pos (preferredMoves_iff.mpr h), ownershipWritten, ownerMoved_of_ne h.2]
  · rw [if_neg h, if_neg (preferredMoves_iff.not.mpr h)]

theorem globalCheck_sourceMode (v : Word) : globalCheck 0 v = if v.toNat < 4 then some v else none := by
  simp only [globalCheck, inRange, Nat.zero_le, true_and, Nat.lt_succ_iff]

theorem clampTo_bit (v : Word) : clampTo 0 1 v = if v = 0 then 0 else 1 := by
  unfold clampTo
  split
  · rename_i h; subst h; rfl
  · rename_i h
    have hpos : v.toNat ≠ 0 := fun he => h (BitVec.eq_of_toNat_eq he)
    rw [show max 0 (min 1 v.toNat) = 1 by omega]; rfl

/-- The state that a setting's WRITE leaves but for its reply: the setting, the arbiter's act on it, and the index. -/
def afterSetting (s : State) (x : Link) (i : Nat) (v : Word) : State :=
  { actedOn s (settingWritten s i v) i 1 with tableIndex := s.tableIndex.put x (i + 1) }

/-- A WRITE of a setting that the lines do not act on. -/
theorem takeWordWrite_acted {r : Req} {i : Nat} {v w : Word} (h : takenFromOwner s r) (hi : i < 12)
    (hw : globalCheck i v = some w) : takeWordWrite s r i v = answered (afterSetting s r.link i w) r 0x02 .ok [1] := by
  have hword := (writeWord_global_taken (s := s) (by omega) hw).trans
    (congrArg WordResult.taken (takeGlobal_of_not_enable (.inl hi)))
  refine takeWordWrite_taken h hword rfl ?_
  rw [arbiterActs_actedOn s (settingWritten s i w) i 1]
  rfl

theorem afterSetting_frame (s : State) (x : Link) (i : Nat) (v : Word) : afterSetting s x i v =
    { s with
      store := (settingWritten s i v).store, faultList := (settingWritten s i v).faultList,
      working := loadSetting s.working i v, arb := (afterSetting s x i v).arb, reports := (afterSetting s x i v).reports,
      dropMark := (afterSetting s x i v).dropMark, tx := (afterSetting s x i v).tx,
      replies := (afterSetting s x i v).replies, tableIndex := s.tableIndex.put x (i + 1) } := by
  unfold afterSetting
  rw [arbiterActs_actedOn s (settingWritten s i v) i 1]
  rfl

theorem stored_afterSetting (s : State) (x : Link) (i : Nat) (v : Word) (a : Nat) :
    stored (afterSetting s x i v) a = stored (settingWritten s i v) a := by
  unfold stored
  rw [afterSetting_frame]

theorem stored_afterSetting_self (s : State) (x : Link) (i : Nat) (v : Word) :
    stored (afterSetting s x i v) i = ⟨v, false⟩ :=
  (stored_afterSetting s x i v i).trans (stored_rewrite_self s i v)

theorem stored_afterSetting_of_ne (s : State) (x : Link) {i a : Nat} (v : Word) (h : a ≠ i) :
    stored (afterSetting s x i v) a = stored s a :=
  (stored_afterSetting s x i v a).trans (stored_rewrite_of_ne s v h)

/-! ## SOURCE_MODE_WRITE (R35) -/

/-- The state with a source mode taken, before the arbiter acts on it. -/
def modeWritten (s : State) (v : Word) : State := settingWritten s 0 v

theorem modeWritten_sole {s : State} {v : Word} : (modeWritten s v).working.sourceMode = .sole ↔ v = 1 :=
  sourceModeOf_eq_sole

theorem modeWritten_isolated {s : State} {v : Word} : (modeWritten s v).working.sourceMode = .isolated ↔ v = 0 :=
  sourceModeOf_eq_isolated

theorem modeWritten_merge {s : State} {v : Word} : (modeWritten s v).working.sourceMode = .merge ↔ v = 3 :=
  sourceModeOf_eq_merge

theorem placedOwner_modeWritten (s : State) (v : Word) : placedOwner (modeWritten s v) =
    if v = 1 then s.working.preferred
    else if (linkOf s s.arb.owner).state ≠ .live ∧ (linkOf s (otherLink s.arb.owner)).state = .live then
      otherLink s.arb.owner
    else s.arb.owner := by
  unfold placedOwner
  simp only [modeWritten_sole]
  rfl

theorem placeCause_modeWritten (s : State) (v : Word) :
    placeCause (modeWritten s v).working.sourceMode = if v = 1 then .reclaim else .ret := by
  unfold placeCause
  simp only [modeWritten_sole]

theorem consolePresent_modeWritten {s : State} {v : Word} {x : Link} {c : Cause} :
    consolePresent (ownerMoved (modeWritten s v) x c) = true ↔
      if v = 3 then (linkOf s .a).state = .live ∨ (linkOf s .b).state = .live else (linkOf s x).state = .live := by
  rw [consolePresent_ownerMoved]
  simp only [modeWritten_merge]
  rfl

theorem handoverTo_modeWritten (s : State) (v : Word) : handoverTo (modeWritten s v).working =
    if s.working.handoverTime ≠ 0 then .handover else if v = 0 then .off else .normal := by
  unfold handoverTo
  simp only [modeWritten_isolated]
  rfl

/-- Settles O23, by the code, and for a new mode by the owner it places and by whether the console is present. -/
theorem sourceModeIsWritten : Obligations.SourceModeIsWritten := by
  intro s r v h
  have hexec : exec (.sourceModeWrite r v) s = .next (takeWordWrite s r 0 v) := rfl
  refine ⟨fun hv => ?_, fun hv => ?_⟩
  · have hrange := (globalCheck_sourceMode v).trans (if_neg (by omega))
    rw [hexec, takeWordWrite_refused h (by decide) (writeWord_global_refused (by decide) hrange)]
  · have hexec' := takeWordWrite_acted h (by decide) ((globalCheck_sourceMode v).trans (if_pos hv))
    refine ⟨afterSetting s r.link 0 v, by rw [hexec, hexec'], stored_afterSetting_self s _ 0 v,
      fun a ha => stored_afterSetting_of_ne s _ v ha, by rw [afterSetting_frame]; rfl, by rw [afterSetting_frame],
      fun hsame => ?_, fun hnew => ?_⟩
    · have hacted : actedOn s (settingWritten s 0 v) 0 1 = modeWritten s v := (actedOn_sourceMode s _).trans (if_pos hsame)
      rw [afterSetting, hacted]
      exact ⟨rfl, rfl, rfl⟩
    · have hacted : actedOn s (settingWritten s 0 v) 0 1 =
          ownershipWritten s (modeWritten s v) (placedOwner (modeWritten s v))
            (placeCause (modeWritten s v).working.sourceMode) := (actedOn_sourceMode s _).trans (if_neg hnew)
      rw [placeCause_modeWritten] at hacted
      rw [afterSetting, hacted]
      dsimp only
      rw [ownershipWritten_owner]
      refine ⟨placedOwner_modeWritten s v, fun hne => ownershipWritten_changed (u := modeWritten s v) hne.symm,
        fun heq => ownershipWritten_kept (u := modeWritten s v) heq.symm,
        fun hne => ownershipWritten_reports (u := modeWritten s v) hne.symm, ?_⟩
      refine ⟨fun hp => ?_, fun hv0 hp => ?_⟩
      · have hentered := ownershipWritten_entered (s := s) (c := if v = 1 then .reclaim else .ret)
          (hp.imp modeWritten_isolated.mpr consolePresent_modeWritten.mpr)
        rw [handoverTo_modeWritten] at hentered
        exact hentered.source
      · obtain ⟨hwaits, hhold⟩ := ownershipWritten_absent (s := s) (c := if v = 1 then .reclaim else .ret)
          (not_or.mpr ⟨modeWritten_isolated.not.mpr hv0, consolePresent_modeWritten.not.mpr hp⟩)
        exact ⟨hwaits, fun hn => (hhold hn).source⟩

/-! ## PREFERRED_LINK_WRITE (R36) -/

/-- The state with a preferred link taken, before the arbiter acts on it. -/
def preferredWritten (s : State) (v : Word) : State := settingWritten s 1 (if v = 0 then 0 else 1)

theorem preferredWritten_working (s : State) (v : Word) :
    (preferredWritten s v).working = { s.working with preferred := if v = 0 then .a else .b } := by
  simp only [preferredWritten, settingWritten, loadSetting, linkOfCode]
  split <;> rfl

theorem actedOn_preferredWritten (s : State) (v : Word) : actedOn s (preferredWritten s v) 1 1 =
    if s.working.sourceMode = .sole ∧ s.arb.owner ≠ (if v = 0 then .a else .b) then
      ownershipWritten s (preferredWritten s v) (if v = 0 then .a else .b) .reclaim
    else preferredWritten s v := by
  rw [actedOn_preferredLink (by rw [preferredWritten_working]), preferredWritten_working]
  rfl

/-- In SOLE the console is present where the preferred link is LIVE. -/
theorem consolePresent_preferredWritten {s : State} (v : Word) {x : Link} (hm : s.working.sourceMode = .sole) :
    ((preferredWritten s v).working.sourceMode = .isolated ∨
        consolePresent (ownerMoved (preferredWritten s v) x .reclaim) = true) ↔ (linkOf s x).state = .live := by
  rw [consolePresent_ownerMoved, preferredWritten_working, hm]
  simp only [reduceCtorEq, false_or, if_false]
  rfl

theorem handoverTo_preferredWritten {s : State} (v : Word) (hm : s.working.sourceMode = .sole) :
    handoverTo (preferredWritten s v).working = if s.working.handoverTime ≠ 0 then .handover else .normal := by
  simp only [handoverTo, preferredWritten_working, hm, reduceCtorEq, if_false]

/-- Settles O24: in SOLE with another owner by whether the new one's link is LIVE. -/
theorem preferredLinkIsWritten : Obligations.PreferredLinkIsWritten := by
  intro s r v h x
  have hexec : exec (.preferredLinkWrite r v) s = .next (takeWordWrite s r 1 v) := rfl
  have hcheck : globalCheck 1 v = some (if v = 0 then 0 else 1) := congrArg some (clampTo_bit v)
  have hexec' := takeWordWrite_acted h (by decide) hcheck
  have hacted : actedOn s (settingWritten s 1 (if v = 0 then 0 else 1)) 1 1 = _ := actedOn_preferredWritten s v
  refine ⟨afterSetting s r.link 1 (if v = 0 then 0 else 1), by rw [hexec, hexec'], stored_afterSetting_self s _ 1 _,
    fun a ha => stored_afterSetting_of_ne s _ _ ha, ?_, by rw [afterSetting_frame], fun hkept => ?_, fun hsole howner => ?_⟩
  · rw [afterSetting_frame]; exact preferredWritten_working s v
  · rw [afterSetting, hacted, if_neg (fun hmoves => hkept.elim (fun hm => hm hmoves.1) hmoves.2)]
    exact ⟨rfl, rfl, rfl, rfl, rfl⟩
  · rw [afterSetting, hacted, if_pos ⟨hsole, howner⟩]
    have hchanged := ownershipWritten_changed (s := s) (u := preferredWritten s v) (c := .reclaim) howner
    refine ⟨ownershipWritten_owner s _ x _, hchanged.1, hchanged.2,
      ownershipWritten_reports (u := preferredWritten s v) howner, ?_⟩
    intro waits entered
    have hpresent := consolePresent_preferredWritten v (x := x) hsole
    refine ⟨fun hlive => ?_, fun hdead => ?_⟩
    · have hentered := ownershipWritten_entered (s := s) (hpresent.mpr hlive)
      rw [handoverTo_preferredWritten v hsole] at hentered
      exact hentered.source
    · obtain ⟨hwaits, hhold⟩ := ownershipWritten_absent (s := s) (hpresent.not.mpr hdead)
      exact ⟨hwaits, fun hn => (hhold hn).source⟩

end Sys2Proof.Machine
end

section
/-! The stack index (R44): what its build lists for each stack, and the addresses that it offers to the fault list. -/

namespace Sys2Proof.Machine

/-! ## Addresses offered to the fault list (R165) -/

/-- What an offer leaves of its address: it is listed, or it found the list full. -/
def Offered (s : State) (a : Nat) : Prop := a ∈ s.faultList ∨ (s.faultOverflow = true ∧ 16 ≤ s.faultList.length)

theorem offered_congr {s t : State} (hl : t.faultList = s.faultList) (ho : t.faultOverflow = s.faultOverflow) (a : Nat) :
    Offered t a ↔ Offered s a := by
  rw [Offered, Offered, hl, ho]

theorem offered_offerFault (s : State) (a : Nat) : Offered (offerFault s a) a := by
  rcases offerFault_cases s a with ⟨hmem, h⟩ | ⟨-, -, h⟩ | ⟨-, hfull, h⟩ <;> rw [h]
  · exact .inl hmem
  · exact .inl (by simp)
  · exact .inr ⟨rfl, hfull⟩

/-- A later offer takes no address off the list. -/
theorem Offered.offerFault {s : State} {a : Nat} (h : Offered s a) (b : Nat) : Offered (offerFault s b) a := by
  rcases offerFault_cases s b with ⟨-, hb⟩ | ⟨-, hroom, hb⟩ | ⟨-, -, hb⟩ <;> rw [hb]
  · exact h
  · rcases h with hmem | ⟨-, hfull⟩
    · exact .inl (by simp [hmem])
    · omega
  · exact h.imp_right fun hfull => ⟨rfl, hfull.2⟩

theorem Offered.offerFaults {s : State} {a : Nat} (h : Offered s a) (as : List Nat) : Offered (offerFaults s as) a := by
  induction as generalizing s with
  | nil => exact h
  | cons b as ih => exact ih (h.offerFault b)

theorem offered_offerFaults {s : State} {a : Nat} {as : List Nat} (h : a ∈ as) : Offered (offerFaults s as) a := by
  induction as generalizing s with
  | nil => cases h
  | cons b as ih =>
    rcases List.mem_cons.mp h with rfl | h
    · exact (offered_offerFault s a).offerFaults as
    · exact ih h

@[simp] theorem offerFaults_store (s : State) (as : List Nat) : (offerFaults s as).store = s.store :=
  foldl_keeps State.store offerFault offerFault_store as s

@[simp] theorem offerFaults_stackIndex (s : State) (as : List Nat) : (offerFaults s as).stackIndex = s.stackIndex :=
  foldl_keeps State.stackIndex offerFault offerFault_stackIndex as s

theorem stored_congr {s t : State} (h : t.store = s.store) : stored t = stored s := by
  funext a
  rw [stored, stored, h]

theorem readWord_eq_some {s : State} {a : Nat} {w : Word} :
    readWord s a = some w ↔ (stored s a).bad = false ∧ (stored s a).val = w := by
  unfold readWord
  cases (stored s a).bad <;> simp

theorem readWord_eq_none {s : State} {a : Nat} : readWord s a = none ↔ (stored s a).bad = true := by
  unfold readWord
  cases (stored s a).bad <;> simp

/-! ## The list of a stack -/

section Insert

variable {e f : IndexEntry} {l : List IndexEntry}

theorem mem_insertIndex (hnew : ∀ g ∈ l, g.cue ≠ e.cue) : f ∈ insertIndex e l ↔ f = e ∨ f ∈ l := by
  induction l with
  | nil => simp [insertIndex]
  | cons g l ih =>
    have hg : e.cue ≠ g.cue := (hnew g (by simp)).symm
    have hl := ih fun g' hg' => hnew g' (by simp [hg'])
    unfold insertIndex
    split
    · simp
    · rw [List.mem_cons, hl, List.mem_cons]
      tauto

theorem insertIndex_rising (hrising : l.Pairwise fun e f => e.cue < f.cue) (hnew : ∀ g ∈ l, g.cue ≠ e.cue) :
    (insertIndex e l).Pairwise fun e f => e.cue < f.cue := by
  induction l with
  | nil => simp [insertIndex]
  | cons g l ih =>
    obtain ⟨hfirst, hrest⟩ := List.pairwise_cons.mp hrising
    have hnew' : ∀ g' ∈ l, g'.cue ≠ e.cue := fun g' hg' => hnew g' (by simp [hg'])
    have hg : e.cue ≠ g.cue := (hnew g (by simp)).symm
    unfold insertIndex
    split
    · rename_i hlt
      refine List.pairwise_cons.mpr ⟨fun f hf => ?_, hrising⟩
      rcases List.mem_cons.mp hf with rfl | hf
      · exact hlt
      · exact hlt.trans (hfirst f hf)
    · rename_i hlt
      refine List.pairwise_cons.mpr ⟨fun f hf => ?_, ih hrest hnew'⟩
      rcases (mem_insertIndex hnew').mp hf with rfl | hf
      · omega
      · exact hfirst f hf

end Insert

theorem stackList_congr {s t : State} (h : t.stackIndex = s.stackIndex) (st : Nat) : stackList t st = stackList s st := by
  rw [stackList, stackList, h]

theorem stackList_of_empty {s : State} (h : s.stackIndex = Vector.replicate 16 []) (st : Nat) : stackList s st = [] := by
  unfold stackList
  split <;> simp [h]

theorem stackList_addIndex (s : State) {st : Nat} (hst : 1 ≤ st ∧ st ≤ 16) (k : Nat) (e : IndexEntry) :
    stackList { s with stackIndex := addIndex s.stackIndex k e } st =
      if k = st then insertIndex e (stackList s st) else stackList s st := by
  simp only [stackList, hst, and_self, dite_true, addIndex]
  split
  · rename_i hk
    rw [Vector.getElem_set]
    split
    · obtain rfl : k = st := by omega
      rw [if_pos rfl]
    · rw [if_neg (by omega)]
  · rw [if_neg (by omega)]

/-! ## The records of a bank -/

/-- Word `i` of the cue record at position `p` of bank `b`, as stored. -/
def recordWord (s : State) (b : Bank) (p i : Nat) : StoredWord := stored s (bankBase b + recordOff p + i)

theorem stored_record (s : State) (b : Bank) (p i : Nat) : stored s (bankBase b + 2627 + 12 * p + i) = recordWord s b p i := by
  rw [recordWord, recordOff, Nat.add_assoc (bankBase b)]

/-- The stack and the cue number words of a record hold no fault. -/
def Readable (s : State) (b : Bank) (p : Nat) : Prop := (recordWord s b p 0).bad = false ∧ (recordWord s b p 1).bad = false

/-- What the index lists for stack `st` once the first `n` records of bank `b` have been read: in rising cue number, the
records of the stack that could be read. -/
def Indexes (s : State) (b : Bank) (n st : Nat) (l : List IndexEntry) : Prop :=
  l.Pairwise (fun e f => e.cue < f.cue) ∧
  ∀ e, e ∈ l ↔ e.position < n ∧ Readable s b e.position ∧ (recordWord s b e.position 0).val.toNat = st ∧
    (recordWord s b e.position 1).val.toNat = e.cue

/-- No two of the first `n` records that could be read name one cue. -/
def NoTwins (s : State) (b : Bank) (n : Nat) : Prop :=
  ∀ p < n, ∀ q < n, Readable s b p → Readable s b q →
    (recordWord s b p 0).val = (recordWord s b q 0).val → (recordWord s b p 1).val = (recordWord s b q 1).val → p = q

section Record

variable {s : State} {b : Bank} {p : Nat}

theorem indexRecord_readable (h : Readable s b p) : indexRecord b s p =
    { s with stackIndex := addIndex s.stackIndex (recordWord s b p 0).val.toNat ⟨(recordWord s b p 1).val.toNat, p⟩ } := by
  have h0 : readWord s (bankBase b + recordOff p) = some (recordWord s b p 0).val := readWord_eq_some.mpr ⟨h.1, rfl⟩
  have h1 : readWord s (bankBase b + recordOff p + 1) = some (recordWord s b p 1).val := readWord_eq_some.mpr ⟨h.2, rfl⟩
  simp only [indexRecord, h0, h1]

theorem indexRecord_faulted (h : ¬ Readable s b p) : indexRecord b s p =
    offerFaults s (faultedOf s [bankBase b + recordOff p, bankBase b + recordOff p + 1]) := by
  unfold indexRecord
  dsimp only
  split
  · rename_i h0 h1
    exact absurd ⟨(readWord_eq_some.mp h0).1, (readWord_eq_some.mp h1).1⟩ h
  · rfl

theorem indexRecord_store (s : State) (b : Bank) (p : Nat) : (indexRecord b s p).store = s.store := by
  by_cases h : Readable s b p
  · rw [indexRecord_readable h]
  · rw [indexRecord_faulted h, offerFaults_store]

theorem Offered.indexRecord {a : Nat} (h : Offered s a) (b : Bank) (p : Nat) : Offered (indexRecord b s p) a := by
  by_cases hr : Readable s b p
  · rw [indexRecord_readable hr]; exact h
  · rw [indexRecord_faulted hr]; exact h.offerFaults _

/-- A record that is read offers each of its faulted words. -/
theorem offered_indexRecord {i : Nat} (hi : i < 2) (h : (recordWord s b p i).bad = true) :
    Offered (indexRecord b s p) (bankBase b + recordOff p + i) := by
  have hr : ¬ Readable s b p := by
    rintro ⟨h0, h1⟩
    rcases (by omega : i = 0 ∨ i = 1) with rfl | rfl
    · simp [h0] at h
    · simp [h1] at h
  rw [indexRecord_faulted hr]
  refine offered_offerFaults (List.mem_filter.mpr ⟨?_, h⟩)
  rcases (by omega : i = 0 ∨ i = 1) with rfl | rfl <;> simp

end Record

/-! ## The build -/

/-- The build after the first `n` records. -/
def indexUpTo (s : State) (b : Bank) (n : Nat) : State := (List.range n).foldl (indexRecord b) s

section Build

variable {s : State} {b : Bank} {n : Nat}

theorem indexUpTo_succ (s : State) (b : Bank) (n : Nat) : indexUpTo s b (n + 1) = indexRecord b (indexUpTo s b n) n := by
  simp [indexUpTo, List.range_succ]

theorem indexUpTo_store (s : State) (b : Bank) (n : Nat) : (indexUpTo s b n).store = s.store :=
  foldl_keeps State.store (indexRecord b) (fun u p => indexRecord_store u b p) _ s

theorem recordWord_indexUpTo (s : State) (b : Bank) (n : Nat) : recordWord (indexUpTo s b n) = recordWord s := by
  funext c p i
  rw [recordWord, recordWord, stored_congr (indexUpTo_store s b n)]

theorem readable_indexUpTo (s : State) (b : Bank) (n p : Nat) : Readable (indexUpTo s b n) b p ↔ Readable s b p := by
  rw [Readable, Readable, recordWord_indexUpTo]

/-- The build offers each faulted stack or cue number word of the loaded records. -/
theorem offered_indexUpTo {p i : Nat} (hp : p < n) (hi : i < 2) (h : (recordWord s b p i).bad = true) :
    Offered (indexUpTo s b n) (bankBase b + recordOff p + i) := by
  induction n with
  | zero => omega
  | succ n ih =>
    rw [indexUpTo_succ]
    rcases Nat.lt_succ_iff_lt_or_eq.mp hp with hlt | rfl
    · exact (ih hlt).indexRecord b n
    · exact offered_indexRecord hi (by rwa [recordWord_indexUpTo])

/-- Record by record, the list of each stack holds what `Indexes` says. -/
theorem indexes_indexUpTo (hempty : s.stackIndex = Vector.replicate 16 []) (htwins : NoTwins s b n) {st : Nat}
    (hst : 1 ≤ st ∧ st ≤ 16) : Indexes s b n st (stackList (indexUpTo s b n) st) := by
  induction n with
  | zero =>
    rw [show stackList (indexUpTo s b 0) st = [] from stackList_of_empty hempty st]
    exact ⟨List.Pairwise.nil, fun e => by simp⟩
  | succ n ih =>
    obtain ⟨hrising, hmem⟩ := ih fun p hp q hq => htwins p (by omega) q (by omega)
    rw [indexUpTo_succ]
    by_cases hr : Readable s b n
    · rw [indexRecord_readable ((readable_indexUpTo s b n n).mpr hr), stackList_addIndex _ hst, recordWord_indexUpTo]
      have hlast (e : IndexEntry) (hstack : (recordWord s b n 0).val.toNat = st) :
          e = ⟨(recordWord s b n 1).val.toNat, n⟩ ↔ e.position = n ∧ Readable s b e.position ∧
            (recordWord s b e.position 0).val.toNat = st ∧ (recordWord s b e.position 1).val.toNat = e.cue := by
        constructor
        · rintro rfl; exact ⟨rfl, hr, hstack, rfl⟩
        · rintro ⟨hpos, -, -, hcue⟩
          cases e
          simp only at hpos hcue
          subst hpos
          rw [hcue]
      split
      · rename_i hstack
        have hnew : ∀ g ∈ stackList (indexUpTo s b n) st, g.cue ≠ (recordWord s b n 1).val.toNat := by
          intro g hg hcue
          obtain ⟨hpos, hread, hstack', hcue'⟩ := (hmem g).mp hg
          have := htwins g.position (by omega) n (by omega) hread hr (BitVec.eq_of_toNat_eq (hstack'.trans hstack.symm))
            (BitVec.eq_of_toNat_eq (hcue'.trans hcue))
          omega
        refine ⟨insertIndex_rising hrising hnew, fun e => ?_⟩
        rw [mem_insertIndex hnew, hmem e, hlast e hstack, Nat.lt_succ_iff_lt_or_eq]
        tauto
      · rename_i hstack
        refine ⟨hrising, fun e => ?_⟩
        rw [hmem e, Nat.lt_succ_iff_lt_or_eq]
        constructor
        · tauto
        · rintro ⟨hpos | hpos, h⟩
          · exact ⟨hpos, h⟩
          · rw [hpos] at h
            exact absurd h.2.1 hstack
    · rw [indexRecord_faulted (mt (readable_indexUpTo s b n n).mp hr), stackList_congr (offerFaults_stackIndex _ _)]
      refine ⟨hrising, fun e => ?_⟩
      rw [hmem e, Nat.lt_succ_iff_lt_or_eq]
      constructor
      · tauto
      · rintro ⟨hpos | hpos, h⟩
        · exact ⟨hpos, h⟩
        · rw [hpos] at h
          exact absurd h.1 hr

theorem buildIndex_faulted (h : readBank s b cueCountOff = none) :
    buildIndex s b = offerFault { s with stackIndex := Vector.replicate 16 [] } (bankBase b + cueCountOff) := by
  have h' : readBank { s with stackIndex := Vector.replicate 16 [] } b cueCountOff = none := h
  simp only [buildIndex, h']

theorem buildIndex_read {w : Word} (h : readBank s b cueCountOff = some w) :
    buildIndex s b = indexUpTo { s with stackIndex := Vector.replicate 16 [] } b w.toNat := by
  have h' : readBank { s with stackIndex := Vector.replicate 16 [] } b cueCountOff = some w := h
  simp only [buildIndex, h']
  rfl

end Build

/-! ## A taken SWITCH -/

/-- The state that a taken SWITCH of bank `b` builds the index on: the bank selected, and the shadow loaded from it. -/
def selected (s : State) (b : Bank) : State :=
  let s := if s.safeMode then s else clearVerified s (otherBank b)
  loadShadow { rewrite s selectionAddr (wordOf (bankCode b)) with active := b, safeMode := false, patchHold := false }

theorem switchTo_eq (s : State) (b : Bank) : (switchTo s b).1 =
    offerReport (buildIndex (selected s b) b) (.switched b (!s.safeMode && heldEdits s)) := rfl

/-- No word of a bank is the selection word. -/
theorem bank_ne_selection (b : Bank) (off : Nat) : bankBase b + off ≠ selectionAddr := by
  have h0 : selectionAddr = 0x2100 := rfl
  cases b <;> simp only [bankBase, h0] <;> omega

theorem stored_selected (s : State) (b c : Bank) (off : Nat) :
    stored (selected s b) (bankBase c + off) = stored s (bankBase c + off) := by
  have hkept := stored_rewrite_of_ne (if s.safeMode then s else clearVerified s (otherBank b)) (wordOf (bankCode b))
    (bank_ne_selection c off)
  have hflags : (if s.safeMode then s else clearVerified s (otherBank b)).store = s.store := by split <;> rfl
  rw [stored_congr hflags] at hkept
  exact hkept

/-- The SWITCH that no row of R161 refuses. -/
theorem exec_switch_taken {s : State} {r : Req} {n : Byte} {b : Bank} (h : takenFromOwner s r) (hb : bankOf n = some b)
    (hstaged : s.safeMode = true ∨ b ≠ s.active) (hslot : s.slot = .empty) (hverified : s.verified.get b = true)
    (hrest : ∀ p, (playbackAt s p).state = .unbound ∨ (playbackAt s p).state = .ready) :
    exec (.switch r n) s = .next (answered (switchTo s b).1 r 0x15 .ok [if (switchTo s b).2 then 1 else 0]) := by
  have hstill : s.playbacks.any playbackActive = false := by
    rw [Vector.any_eq_false]
    intro i hi
    have := hrest ⟨i, hi⟩
    simp only [playbackAt, Fin.getElem_fin] at this
    rcases this with hp | hp <;> simp [playbackActive, hp]
  have hrow : ¬ ((!s.safeMode) = true ∧ b = s.active) := by
    rintro ⟨hsafe, hactive⟩
    rcases hstaged with h | h
    · simp [h] at hsafe
    · exact h hactive
  have hswitch : switchBank s b = ((switchTo s b).1, .ok, (switchTo s b).2) := by
    unfold switchBank
    rw [if_neg hrow, if_neg (not_not.mpr hslot), if_neg (by simp [hverified]), if_neg (by simp [hstill])]
  have hrange : (Request.switch n).inRange = true := by simp [Request.inRange, hb]
  refine congrArg _ ((takeRequest_owner h hrange).trans ?_)
  simp only [answer, answerSwitch, hb, Option.getD_some, hswitch]
  rfl

/-- Settles O38: the index is built on the bank as it stood, record by record. -/
theorem switchBuildsStackIndex : Obligations.SwitchBuildsStackIndex := by
  intro s t r n b h hb hstaged hslot hverified hrest hexec rec_ read offered
  rw [exec_switch_taken h hb hstaged hslot hverified hrest, Host.Outcome.next.injEq] at hexec
  have hindex : t.stackIndex = (buildIndex (selected s b) b).stackIndex := by
    rw [← hexec, answered_frame, switchTo_eq, offerReport_stackIndex]
  have hoffered (a : Nat) : offered a ↔ Offered (buildIndex (selected s b) b) a := by
    refine offered_congr ?_ ?_ a
    · rw [← hexec, answered_frame, switchTo_eq, offerReport_faultList]
    · rw [← hexec, answered_frame, switchTo_eq, offerReport_faultOverflow]
  have hbank : readBank (selected s b) b cueCountOff = readWord s (bankBase b + 2) := by
    rw [readBank, readWord, stored_selected]
    rfl
  have hrec (p i : Nat) : recordWord { selected s b with stackIndex := Vector.replicate 16 [] } b p i = rec_ p i := by
    rw [show rec_ p i = recordWord s b p i from stored_record s b p i, recordWord, recordWord, Nat.add_assoc]
    exact stored_selected s b b _
  refine ⟨fun hnone => ?_, fun count hcount => ?_⟩
  · rw [buildIndex_faulted (hbank.trans hnone)] at hindex hoffered
    exact ⟨fun st => stackList_of_empty (by rw [hindex, offerFault_stackIndex]) st,
      (hoffered _).mpr (offered_offerFault _ _)⟩
  · rw [buildIndex_read (hbank.trans hcount)] at hindex hoffered
    refine ⟨fun p hp i hi hbad => ?_, fun htwins st hlo hhi => ?_⟩
    · rw [hoffered, Nat.add_assoc (bankBase b) 2627]
      exact offered_indexUpTo hp hi (by rwa [hrec])
    · rw [stackList_congr hindex]
      have hlist := indexes_indexUpTo (s := { selected s b with stackIndex := Vector.replicate 16 [] }) (b := b)
        (n := count.toNat) rfl (by simpa only [NoTwins, Readable, hrec] using htwins) ⟨hlo, hhi⟩
      simpa only [Indexes, Readable, hrec] using hlist

end Sys2Proof.Machine
end

section
/-! GO, BACK and GOTO (R45 to R48, R62 to R69, R74): the lookups of the stack index, the reading of a cue, and the commands that
are refused and that are taken. -/

namespace Sys2Proof.Machine

/-! ## Lists in rising cue number -/

section Rising

variable {l : List IndexEntry} {e : IndexEntry} {n : Nat}

theorem head?_eq_least (h : l.Pairwise fun e f => e.cue < f.cue) :
    l.head? = some e ↔ e ∈ l ∧ ∀ f ∈ l, e.cue ≤ f.cue := by
  cases l with
  | nil => simp
  | cons g l =>
    have hfirst := (List.pairwise_cons.mp h).1
    rw [List.head?_cons, Option.some.injEq]
    constructor
    · rintro rfl
      refine ⟨by simp, fun f hf => ?_⟩
      rcases List.mem_cons.mp hf with rfl | hf
      · exact le_rfl
      · exact (hfirst f hf).le
    · rintro ⟨hmem, hleast⟩
      rcases List.mem_cons.mp hmem with rfl | hmem
      · rfl
      · have := hfirst e hmem
        have := hleast g (by simp)
        omega

theorem getLast?_eq_greatest (h : l.Pairwise fun e f => e.cue < f.cue) :
    l.getLast? = some e ↔ e ∈ l ∧ ∀ f ∈ l, f.cue ≤ e.cue := by
  rcases List.eq_nil_or_concat' l with rfl | ⟨l, g, rfl⟩
  · simp
  · obtain ⟨-, -, hbefore⟩ := List.pairwise_append.mp h
    have hlast : ∀ f ∈ l, f.cue < g.cue := fun f hf => hbefore f hf g (List.mem_singleton.mpr rfl)
    rw [List.getLast?_concat, Option.some.injEq]
    constructor
    · rintro rfl
      refine ⟨by simp, fun f hf => ?_⟩
      rcases List.mem_append.mp hf with hf | hf
      · exact (hlast f hf).le
      · exact (congrArg IndexEntry.cue (List.mem_singleton.mp hf)).le
    · rintro ⟨hmem, hgreatest⟩
      rcases List.mem_append.mp hmem with hmem | hmem
      · have := hlast e hmem
        have := hgreatest g (by simp)
        omega
      · exact (List.mem_singleton.mp hmem).symm

/-- The first entry that meets a condition is the lowest cue that meets it. -/
theorem find?_eq_least {c : IndexEntry → Bool} (h : l.Pairwise fun e f => e.cue < f.cue) :
    l.find? c = some e ↔ e ∈ l ∧ c e = true ∧ ∀ f ∈ l, c f = true → e.cue ≤ f.cue := by
  rw [← List.head?_filter, head?_eq_least (h.filter _)]
  simp only [List.mem_filter, and_imp, and_assoc]

end Rising

section Lookups

variable {s : State} {st : Nat} (h : (stackList s st).Pairwise fun e f => e.cue < f.cue)

include h

theorem firstCue_eq_some (e : IndexEntry) :
    firstCue s st = some e ↔ e ∈ stackList s st ∧ ∀ f ∈ stackList s st, e.cue ≤ f.cue :=
  head?_eq_least h

theorem namedCue_eq_some (n : Nat) (e : IndexEntry) : namedCue s st n = some e ↔ e ∈ stackList s st ∧ e.cue = n := by
  rw [namedCue, find?_eq_least h]
  simp only [beq_iff_eq]
  constructor
  · rintro ⟨hmem, hcue, -⟩; exact ⟨hmem, hcue⟩
  · rintro ⟨hmem, rfl⟩; exact ⟨hmem, rfl, fun f _ hf => hf.ge⟩

theorem higherCue_eq_some (n : Nat) (e : IndexEntry) : higherCue s st n = some e ↔
    e ∈ stackList s st ∧ n < e.cue ∧ ∀ f ∈ stackList s st, n < f.cue → e.cue ≤ f.cue := by
  rw [higherCue, find?_eq_least h]
  simp only [decide_eq_true_eq]

theorem previousCue_eq_some (n : Nat) (e : IndexEntry) : previousCue s st n = some e ↔
    e ∈ stackList s st ∧ e.cue < n ∧ ∀ f ∈ stackList s st, f.cue < n → f.cue ≤ e.cue := by
  rw [previousCue, getLast?_eq_greatest (h.filter _)]
  simp only [List.mem_filter, decide_eq_true_eq, and_imp, and_assoc]

end Lookups

theorem higherCue_eq_none {s : State} {st n : Nat} : higherCue s st n = none ↔ ∀ f ∈ stackList s st, f.cue ≤ n := by
  simp [higherCue]

/-! ## The next cue (R46) -/

section Next

variable {s : State} {st n pos : Nat} {w link : Word}

theorem readBank_record (s : State) (pos i : Nat) :
    readBank s s.active (recordOff pos + i) = readWord s (bankBase s.active + recordOff pos + i) :=
  congrArg (readWord s) (Nat.add_assoc _ _ _).symm

theorem nextCue_flags_faulted (h : readWord s (bankBase s.active + recordOff pos + 8) = none) :
    nextCue s st n pos = .fault (bankBase s.active + recordOff pos + 8) := by
  simp only [nextCue, readBank_record, h]

theorem nextCue_link_faulted (h : readWord s (bankBase s.active + recordOff pos + 8) = some w) (hlink : cueLink w = true)
    (h' : readWord s (bankBase s.active + recordOff pos + 10) = none) :
    nextCue s st n pos = .fault (bankBase s.active + recordOff pos + 10) := by
  simp only [nextCue, readBank_record, h, hlink, if_true, h']

theorem nextCue_linked (h : readWord s (bankBase s.active + recordOff pos + 8) = some w) (hlink : cueLink w = true)
    (h' : readWord s (bankBase s.active + recordOff pos + 10) = some link) :
    nextCue s st n pos = .found (namedCue s st link.toNat) := by
  simp only [nextCue, readBank_record, h, hlink, if_true, h']

theorem nextCue_higher (h : readWord s (bankBase s.active + recordOff pos + 8) = some w) (hlink : cueLink w = false) :
    nextCue s st n pos = .found (higherCue s st n) := by
  simp only [nextCue, readBank_record, h, hlink, Bool.false_eq_true, if_false]

end Next

/-- R45 to R47: the lookups over a list in rising cue number. -/
theorem lookups (s : State) (st n : Nat) :
    let l := stackList s st
    l.Pairwise (fun e f => e.cue < f.cue) →
    (∀ e, firstCue s st = some e ↔ e ∈ l ∧ ∀ f ∈ l, e.cue ≤ f.cue) ∧
    (∀ e, namedCue s st n = some e ↔ e ∈ l ∧ e.cue = n) ∧
    (∀ e, previousCue s st n = some e ↔ e ∈ l ∧ e.cue < n ∧ ∀ f ∈ l, f.cue < n → f.cue ≤ e.cue) ∧
    ∀ pos : Nat,
      let a := bankBase s.active + 2627 + 12 * pos
      (readWord s (a + 8) = none → nextCue s st n pos = .fault (a + 8)) ∧
      (∀ w, readWord s (a + 8) = some w → w.getLsbD 5 = true →
        (readWord s (a + 10) = none → nextCue s st n pos = .fault (a + 10)) ∧
        ∀ link, readWord s (a + 10) = some link → nextCue s st n pos = .found (namedCue s st link.toNat)) ∧
      (∀ w, readWord s (a + 8) = some w → w.getLsbD 5 = false →
        (∀ e, nextCue s st n pos = .found (some e) ↔ e ∈ l ∧ n < e.cue ∧ ∀ f ∈ l, n < f.cue → e.cue ≤ f.cue) ∧
        (nextCue s st n pos = .found none ↔ ∀ f ∈ l, f.cue ≤ n)) := by
  intro l hl
  refine ⟨firstCue_eq_some hl, namedCue_eq_some hl n, previousCue_eq_some hl n, fun pos => ?_⟩
  have haddr : bankBase s.active + 2627 + 12 * pos = bankBase s.active + recordOff pos := Nat.add_assoc _ _ _
  simp only [haddr]
  refine ⟨nextCue_flags_faulted, fun w hw hlink => ⟨nextCue_link_faulted hw hlink, fun link => nextCue_linked hw hlink⟩,
    fun w hw hlink => ?_⟩
  rw [nextCue_higher hw hlink]
  simp only [Lookup.found.injEq]
  exact ⟨higherCue_eq_some hl n, higherCue_eq_none⟩

/-! ## The reading of a cue (R40, R48) -/

theorem faultedOf_eq (s : State) (as : List Nat) : faultedOf s as = as.filter fun x => (readWord s x).isNone := by
  refine List.filter_congr fun x _ => ?_
  unfold readWord
  cases (stored s x).bad <;> rfl

theorem cueProfile_eq (w : Word) : cueProfile w =
    if w.toNat % 4 = 0 then .linear else if w.toNat % 4 = 1 then .smooth else if w.toNat % 4 = 2 then .easeIn else .easeOut := by
  unfold cueProfile profileOf
  split
  · rename_i h; rw [if_pos h]
  · rename_i h; rw [if_neg (by omega), if_pos h]
  · rename_i h; rw [if_neg (by omega), if_neg (by omega), if_pos h]
  · rename_i h0 h1 h2
    rw [if_neg h0, if_neg h1, if_neg h2]

/-- The values at 0, 1, 2, and so on, in pairs. -/
theorem pairs_range (f : Nat → Nat) (n : Nat) :
    pairs ((List.range (2 * n)).map f) = (List.range n).map fun j => (f (2 * j), f (2 * j + 1)) := by
  induction n generalizing f with
  | zero => rfl
  | succ n ih =>
    have hleft : List.range (2 * (n + 1)) = 0 :: 1 :: (List.range (2 * n)).map (· + 2) := by
      rw [show 2 * (n + 1) = 2 * n + 1 + 1 by omega, List.range_succ_eq_map, List.range_succ_eq_map]
      simp
    rw [hleft, List.range_succ_eq_map, List.map_cons, List.map_cons, List.map_map, pairs, ih]
    simp [Function.comp_def, Nat.mul_add]

section Read

variable {s : State} {pos : Nat}

theorem readCue_ok (h : faultedOf s (cueAddrs s pos) = []) : readCue s pos = .ok (cueData s pos) := by
  simp only [readCue, h]

theorem readCue_error (h : faultedOf s (cueAddrs s pos) ≠ []) : readCue s pos = .error (faultedOf s (cueAddrs s pos)) := by
  unfold readCue
  split
  · rename_i hnil; exact absurd hnil h
  · rfl

/-- The addresses of a cue start where the look's place is read. -/
theorem cueAddrs_placed {o l : Word} (ho : readWord s (bankBase s.active + recordOff pos + 2) = some o)
    (hl : readWord s (bankBase s.active + recordOff pos + 3) = some l) :
    cueAddrs s pos = recordAddrs s pos ++ lookAddrs s o.toNat l.toNat := by
  simp only [cueAddrs, ho, hl]

theorem cueAddrs_unplaced (h : readWord s (bankBase s.active + recordOff pos + 2) = none ∨
    readWord s (bankBase s.active + recordOff pos + 3) = none) : cueAddrs s pos = recordAddrs s pos := by
  unfold cueAddrs
  dsimp only
  split
  · rename_i ho hl; simp [ho, hl] at h
  · rfl

/-- A faulted word of the look's place is one of the record's. -/
theorem faultedOf_unplaced (h : readWord s (bankBase s.active + recordOff pos + 2) = none ∨
    readWord s (bankBase s.active + recordOff pos + 3) = none) : faultedOf s (recordAddrs s pos) ≠ [] := by
  have hword {i : Nat} (hi : i < 12) (hnone : readWord s (bankBase s.active + recordOff pos + i) = none) :
      faultedOf s (recordAddrs s pos) ≠ [] :=
    List.ne_nil_of_mem (List.mem_filter.mpr ⟨List.mem_map.mpr ⟨i, List.mem_range.mpr hi, rfl⟩, readWord_eq_none.mp hnone⟩)
  exact h.elim (hword (by decide)) (hword (by decide))

/-- A record and a look that are read without a fault give their values. -/
theorem readCue_values {w v : Nat → Word}
    (hw : ∀ i < 12, readWord s (bankBase s.active + recordOff pos + i) = some (w i))
    (hv : ∀ j < 2 * (w 3).toNat, readWord s (bankBase s.active + lookOff (w 2).toNat + j) = some (v j)) :
    readCue s pos = .ok {
      upTime := (w 4).toNat, upDelay := (w 5).toNat, downTime := (w 6).toNat, downDelay := (w 7).toNat,
      profile := cueProfile (w 8), block := cueBlock (w 8), report := cueReport (w 8),
      follow := if cueFollow (w 8) then some (w 9).toNat else none, label := w 11,
      look := (List.range (w 3).toNat).map fun j => ((v (2 * j)).toNat, (v (2 * j + 1)).toNat) } := by
  have hword {i : Nat} (hi : i < 12) : (stored s (bankBase s.active + recordOff pos + i)).val = w i :=
    (readWord_eq_some.mp (hw i hi)).2
  have hlook : (lookAddrs s (w 2).toNat (w 3).toNat).map (fun a => (stored s a).val.toNat) =
      (List.range (2 * (w 3).toNat)).map fun j => (v j).toNat := by
    rw [lookAddrs, List.map_map]
    exact List.map_congr_left fun j hj => congrArg BitVec.toNat (readWord_eq_some.mp (hv j (List.mem_range.mp hj))).2
  have hgood : faultedOf s (cueAddrs s pos) = [] := by
    rw [cueAddrs_placed (hw 2 (by decide)) (hw 3 (by decide)), faultedOf, List.filter_eq_nil_iff]
    intro a ha
    rw [Bool.not_eq_true]
    rcases List.mem_append.mp ha with ha | ha
    · obtain ⟨i, hi, rfl⟩ := List.mem_map.mp ha
      exact (readWord_eq_some.mp (hw i (List.mem_range.mp hi))).1
    · obtain ⟨j, hj, rfl⟩ := List.mem_map.mp ha
      exact (readWord_eq_some.mp (hv j (List.mem_range.mp hj))).1
  rw [readCue_ok hgood, cueData]
  simp only [hword (show 2 < 12 by decide), hword (show 3 < 12 by decide), hword (show 4 < 12 by decide),
    hword (show 5 < 12 by decide), hword (show 6 < 12 by decide), hword (show 7 < 12 by decide),
    hword (show 8 < 12 by decide), hword (show 9 < 12 by decide), hword (show 11 < 12 by decide), hlook, pairs_range]

end Read

/-- R40, R48: the reading of a cue. -/
theorem cueStartReads (s : State) (pos : Nat) :
    let a := bankBase s.active + 2627 + 12 * pos
    let pool (o : Word) : Nat := bankBase s.active + 14147 + 2 * o.toNat
    let record := (List.range 12).map (a + ·)
    let faulted (as : List Nat) : List Nat := as.filter fun x => (readWord s x).isNone
    (∀ w v : Nat → Word, (∀ i < 12, readWord s (a + i) = some (w i)) →
      (∀ j < 2 * (w 3).toNat, readWord s (pool (w 2) + j) = some (v j)) →
      readCue s pos = .ok {
        upTime := (w 4).toNat, upDelay := (w 5).toNat, downTime := (w 6).toNat, downDelay := (w 7).toNat,
        profile := if (w 8).toNat % 4 = 0 then .linear else if (w 8).toNat % 4 = 1 then .smooth
          else if (w 8).toNat % 4 = 2 then .easeIn else .easeOut,
        block := (w 8).getLsbD 2, report := (w 8).getLsbD 3,
        follow := if (w 8).getLsbD 4 then some (w 9).toNat else none, label := w 11,
        look := (List.range (w 3).toNat).map fun j => ((v (2 * j)).toNat, (v (2 * j + 1)).toNat) }) ∧
    (readWord s (a + 2) = none ∨ readWord s (a + 3) = none → readCue s pos = .error (faulted record)) ∧
    ∀ o l, readWord s (a + 2) = some o → readWord s (a + 3) = some l →
      let bad := faulted (record ++ (List.range (2 * l.toNat)).map (pool o + ·))
      bad ≠ [] → readCue s pos = .error bad := by
  intro a pool record faulted
  have ha : a = bankBase s.active + recordOff pos := Nat.add_assoc _ _ _
  have hpool (o : Word) : pool o = bankBase s.active + lookOff o.toNat := Nat.add_assoc _ _ _
  have hrecord : record = recordAddrs s pos := by simp only [record, ha, recordAddrs]
  have hfaulted (as : List Nat) : faulted as = faultedOf s as := (faultedOf_eq s as).symm
  simp only [ha, hpool, hrecord, hfaulted]
  refine ⟨fun w v hw hv => ?_, fun h => ?_, fun o l ho hl hbad => ?_⟩
  · rw [← cueProfile_eq]; exact readCue_values hw hv
  · have haddrs := cueAddrs_unplaced h
    rw [readCue_error (haddrs ▸ faultedOf_unplaced h), haddrs]
  · have haddrs : cueAddrs s pos = _ := cueAddrs_placed ho hl
    rw [lookAddrs] at haddrs
    rw [← haddrs] at hbad ⊢
    exact readCue_error hbad

/-! ## GO, BACK and GOTO as commands -/

/-- A playback that GO, BACK and follows take from its current cue. -/
def InCue (state : PlaybackState) : Prop := state = .fading ∨ state = .paused ∨ state = .atCue

theorem inCue_or (state : PlaybackState) : state = .unbound ∨ (state = .ready ∨ state = .releasing) ∨ InCue state := by
  cases state <;> simp [InCue]

section Command

variable {s u : State} {r : Req} {pb : Byte} {p : PlaybackNo}

theorem exec_go (h : takenFromOwner s r) (hp : playbackOf pb = some p) :
    exec (.go r pb) s = settle (answered (goPlayback s p).1 r 0x30 (goPlayback s p).2 []) := by
  refine congrArg settle ((takeRequest_owner h (by simp [Request.inRange, hp])).trans ?_)
  simp only [answer, plain, hp, Option.getD_some]
  rfl

theorem exec_back (h : takenFromOwner s r) (hp : playbackOf pb = some p) :
    exec (.back r pb) s = settle (answered (backPlayback s p).1 r 0x31 (backPlayback s p).2 []) := by
  refine congrArg settle ((takeRequest_owner h (by simp [Request.inRange, hp])).trans ?_)
  simp only [answer, plain, hp, Option.getD_some]
  rfl

theorem exec_goto (h : takenFromOwner s r) (hp : playbackOf pb = some p) (n : Word) (t : Option Word) :
    exec (.goto r pb n t) s =
      settle (answered (gotoPlayback s p n.toNat t).1 r 0x32 (gotoPlayback s p n.toNat t).2 []) := by
  refine congrArg settle ((takeRequest_owner h (by simp [Request.inRange, hp])).trans ?_)
  simp only [answer, plain, hp, Option.getD_some]
  rfl

theorem settle_answered {code : Byte} {res : Result} {data : List Byte} (hu : u.followStuck = false) :
    settle (answered u r code res data) = .next (answered u r code res data) :=
  settle_next (by simp [hu])

theorem goPlayback_unbound (h : (playbackAt s p).state = .unbound) : goPlayback s p = (s, .unbound) := by
  simp [goPlayback, h]

theorem goPlayback_first (h : (playbackAt s p).state = .ready ∨ (playbackAt s p).state = .releasing) :
    goPlayback s p = finishStart (beginFirst s p) p := by
  rcases h with h | h <;> simp [goPlayback, h]

theorem goPlayback_next (h : InCue (playbackAt s p).state) : goPlayback s p = finishStart (beginNext s p) p := by
  rcases h with h | h | h <;> simp [goPlayback, h]

theorem backPlayback_inCue (h : InCue (playbackAt s p).state) : backPlayback s p = finishStart (beginBack s p) p := by
  rcases h with h | h | h <;> simp [backPlayback, h]

theorem backPlayback_refused (h : ¬ InCue (playbackAt s p).state) : backPlayback s p = (s, .state) := by
  rcases inCue_or (playbackAt s p).state with h' | (h' | h') | h'
  · simp [backPlayback, h']
  · simp [backPlayback, h']
  · simp [backPlayback, h']
  · exact absurd h' h

theorem gotoPlayback_unbound (n : Nat) (t : Option Word) (h : (playbackAt s p).state = .unbound) :
    gotoPlayback s p n t = (s, .unbound) := by
  simp [gotoPlayback, h]

theorem gotoPlayback_zero (t : Option Word) (h : (playbackAt s p).state ≠ .unbound) :
    gotoPlayback s p 0 t = (s, .noCue) := by
  unfold gotoPlayback
  split
  · rename_i h'; exact absurd h' h
  all_goals rfl

theorem gotoPlayback_named {n : Word} (t : Option Word) (h : (playbackAt s p).state ≠ .unbound) (hn : n ≠ 0) :
    gotoPlayback s p n.toNat t = finishStart (beginNamed s p n.toNat t) p := by
  have hn' : n.toNat ≠ 0 := fun h0 => hn (BitVec.eq_of_toNat_eq h0)
  unfold gotoPlayback
  split
  · rename_i h'; exact absurd h' h
  all_goals exact if_neg hn'

end Command

/-! ## The start of a cue -/

/-- What takes the cue that a GOTO names (R63). -/
def gotoTakenBy : Option Word → TakenBy
  | none => .cue
  | some t => .timed t.toNat

section Begin

variable {s : State} {p : PlaybackNo} {st : Word} {e : IndexEntry} {c : CueRef}

theorem beginFirst_unread (hb : boundStack s p = none) :
    beginFirst s p = (offerFaults s [playbackAddr p 0], .refused .fault) := by
  simp only [beginFirst, hb]; rfl

theorem beginFirst_none (hb : boundStack s p = some st) (hf : firstCue s st.toNat = none) :
    beginFirst s p = (s, .refused .noCue) := by
  simp only [beginFirst, hb, hf]

theorem beginFirst_found (hb : boundStack s p = some st) (hf : firstCue s st.toNat = some e) :
    beginFirst s p = beginCue s p e .cue := by
  simp only [beginFirst, hb, hf]

theorem beginNext_unread (hb : boundStack s p = none) :
    beginNext s p = (offerFaults s [playbackAddr p 0], .refused .fault) := by
  simp only [beginNext, hb]; rfl

theorem beginNext_none (hb : boundStack s p = some st) (hc : (playbackAt s p).cue = some c)
    (hn : nextCue s st.toNat c.number c.position = .found none) : beginNext s p = (s, .refused .endOfStack) := by
  simp only [beginNext, hb, hc, hn]

theorem beginNext_fault {a : Nat} (hb : boundStack s p = some st) (hc : (playbackAt s p).cue = some c)
    (hn : nextCue s st.toNat c.number c.position = .fault a) :
    beginNext s p = (offerFaults s [a], .refused .fault) := by
  simp only [beginNext, hb, hc, hn]; rfl

theorem beginNext_found (hb : boundStack s p = some st) (hc : (playbackAt s p).cue = some c)
    (hn : nextCue s st.toNat c.number c.position = .found (some e)) : beginNext s p = beginCue s p e .cue := by
  simp only [beginNext, hb, hc, hn]

theorem beginBack_unread (hb : boundStack s p = none) :
    beginBack s p = (offerFaults s [playbackAddr p 0], .refused .fault) := by
  simp only [beginBack, hb]; rfl

theorem beginBack_none (hb : boundStack s p = some st) (hc : (playbackAt s p).cue = some c)
    (hn : previousCue s st.toNat c.number = none) : beginBack s p = (s, .refused .endOfStack) := by
  simp only [beginBack, hb, hc, hn]

theorem beginBack_untimed (hb : boundStack s p = some st) (hc : (playbackAt s p).cue = some c)
    (hn : previousCue s st.toNat c.number = some e) (ht : readWord s (playbackAddr p 3) = none) :
    beginBack s p = (offerFaults s [playbackAddr p 3], .refused .fault) := by
  simp only [beginBack, hb, hc, hn, ht]; rfl

theorem beginBack_found {t : Word} (hb : boundStack s p = some st) (hc : (playbackAt s p).cue = some c)
    (hn : previousCue s st.toNat c.number = some e) (ht : readWord s (playbackAddr p 3) = some t) :
    beginBack s p = beginCue s p e (.back t.toNat) := by
  simp only [beginBack, hb, hc, hn, ht]

theorem beginNamed_unread (n : Nat) (t : Option Word) (hb : boundStack s p = none) :
    beginNamed s p n t = (offerFaults s [playbackAddr p 0], .refused .fault) := by
  simp only [beginNamed, hb]; rfl

theorem beginNamed_none {n : Nat} (t : Option Word) (hb : boundStack s p = some st) (hn : namedCue s st.toNat n = none) :
    beginNamed s p n t = (s, .refused .noCue) := by
  simp only [beginNamed, hb, hn]

theorem beginNamed_found {n : Nat} (t : Option Word) (hb : boundStack s p = some st) (hn : namedCue s st.toNat n = some e) :
    beginNamed s p n t = beginCue s p e (gotoTakenBy t) := by
  cases t <;> simp only [beginNamed, hb, hn, gotoTakenBy]

theorem beginCue_error {bad : List Nat} (by_ : TakenBy) (h : readCue s e.position = .error bad) :
    beginCue s p e by_ = (offerFaults s bad, .refused .fault) := by
  simp only [beginCue, h]

theorem beginCue_ok {d : CueData} (by_ : TakenBy) (h : readCue s e.position = .ok d) :
    beginCue s p e by_ = (afterSetUp s p e d by_, .setUp) := by
  simp only [beginCue, h, afterSetUp]

end Begin

/-! ## A refused command -/

section Refused

variable {s u : State} {r : Req} {pb : Byte} {p : PlaybackNo} {res : Result}

theorem exec_go_refused (h : takenFromOwner s r) (hp : playbackOf pb = some p) (hg : goPlayback s p = (u, res))
    (hu : u.followStuck = false) : exec (.go r pb) s = .next (answered u r 0x30 res []) := by
  rw [exec_go h hp, hg]; exact settle_answered hu

theorem exec_back_refused (h : takenFromOwner s r) (hp : playbackOf pb = some p) (hb : backPlayback s p = (u, res))
    (hu : u.followStuck = false) : exec (.back r pb) s = .next (answered u r 0x31 res []) := by
  rw [exec_back h hp, hb]; exact settle_answered hu

theorem exec_goto_refused {n : Word} {t : Option Word} (h : takenFromOwner s r) (hp : playbackOf pb = some p)
    (hg : gotoPlayback s p n.toNat t = (u, res)) (hu : u.followStuck = false) :
    exec (.goto r pb n t) s = .next (answered u r 0x32 res []) := by
  rw [exec_goto h hp, hg]; exact settle_answered hu

end Refused

/-- Settles O49, command by command: each of them by what stops the start of its cue. -/
theorem cueCommandsAreRefused : Obligations.CueCommandsAreRefused := by
  intro s r pb p h hs hp state inCue no faulted
  have hoffered (bad : List Nat) : (offerFaults s bad).followStuck = false :=
    (followStuck_of_coreView (coreView_offerFaults s bad)).trans hs
  have goFirst {u : State} {res : Result} (hstate : state = .ready ∨ state = .releasing)
      (hg : beginFirst s p = (u, .refused res)) (hu : u.followStuck = false) :
      exec (.go r pb) s = .next (answered u r 0x30 res []) :=
    exec_go_refused h hp (by rw [goPlayback_first hstate, hg]; rfl) hu
  have goNext {u : State} {res : Result} (hstate : inCue) (hg : beginNext s p = (u, .refused res))
      (hu : u.followStuck = false) : exec (.go r pb) s = .next (answered u r 0x30 res []) :=
    exec_go_refused h hp (by rw [goPlayback_next hstate, hg]; rfl) hu
  have back {u : State} {res : Result} (hstate : inCue) (hg : beginBack s p = (u, .refused res))
      (hu : u.followStuck = false) : exec (.back r pb) s = .next (answered u r 0x31 res []) :=
    exec_back_refused h hp (by rw [backPlayback_inCue hstate, hg]; rfl) hu
  have named {u : State} {res : Result} {n : Word} {t : Option Word} (hstate : state ≠ .unbound) (hn : n ≠ 0)
      (hg : beginNamed s p n.toNat t = (u, .refused res)) (hu : u.followStuck = false) :
      exec (.goto r pb n t) s = .next (answered u r 0x32 res []) :=
    exec_goto_refused h hp (by rw [gotoPlayback_named t hstate hn, hg]; rfl) hu
  have zero (hstate : state ≠ .unbound) (t : Option Word) : exec (.goto r pb 0 t) s = no 0x32 .noCue :=
    exec_goto_refused h hp (gotoPlayback_zero t hstate) hs
  refine ⟨fun hstate => ⟨exec_go_refused h hp (goPlayback_unbound hstate) hs,
      fun n t => exec_goto_refused h hp (gotoPlayback_unbound _ t hstate) hs⟩,
    fun hstate => exec_back_refused h hp (backPlayback_refused hstate) hs, zero, fun st hb => ⟨fun hstate => ?_,
      fun c hstate hc => ?_, fun n t hstate hnone => ?_, fun n t e bad hstate hn hnamed hbad => ?_⟩, fun hb => ?_⟩
  · refine ⟨fun hnone => goFirst hstate (beginFirst_none hb hnone) hs, fun e bad hfirst hbad => ?_⟩
    exact goFirst hstate ((beginFirst_found hb hfirst).trans (beginCue_error _ hbad)) (hoffered bad)
  · refine ⟨fun hnone => goNext hstate (beginNext_none hb hc hnone) hs,
      fun a hfault => goNext hstate (beginNext_fault hb hc hfault) (hoffered _),
      fun e bad hfound hbad => ?_, fun hnone => back hstate (beginBack_none hb hc hnone) hs, fun e hprev => ⟨fun ht => ?_,
        fun t bad ht hbad => ?_⟩⟩
    · exact goNext hstate ((beginNext_found hb hc hfound).trans (beginCue_error _ hbad)) (hoffered bad)
    · exact back hstate (beginBack_untimed hb hc hprev ht) (hoffered _)
    · exact back hstate ((beginBack_found hb hc hprev ht).trans (beginCue_error _ hbad)) (hoffered bad)
  · by_cases hn : n = 0
    · subst hn; exact zero hstate t
    · exact named hstate hn (beginNamed_none t hb hnone) hs
  · exact named hstate hn ((beginNamed_found t hb hnamed).trans (beginCue_error _ hbad)) (hoffered bad)
  · refine ⟨fun hstate => ⟨?_, fun n t hn => named hstate hn (beginNamed_unread _ t hb) (hoffered _)⟩,
      fun hstate => back hstate (beginBack_unread hb) (hoffered _)⟩
    rcases inCue_or state with hunbound | hfirst | hnext
    · exact absurd hunbound hstate
    · exact goFirst hfirst (beginFirst_unread hb) (hoffered _)
    · exact goNext hnext (beginNext_unread hb) (hoffered _)

/-! ## A taken command -/

theorem followTakes_followStuck {settles : State → State → Prop} {p : PlaybackNo} {u v : State}
    (hsettles : ∀ u v, settles u v → v.followStuck = u.followStuck) (h : followTakes settles p u v) :
    v.followStuck = u.followStuck := by
  rcases h with ⟨-, rfl⟩ | ⟨st, c, -, -, ⟨-, rfl⟩ | ⟨a, -, rfl⟩ | ⟨e, -, ⟨bad, -, rfl⟩ | ⟨d, -, hv⟩⟩⟩
  · exact offerFault_followStuck _ _
  · rfl
  · exact offerFault_followStuck _ _
  · exact followStuck_of_coreView (coreView_offerFaults _ _)
  · have hkept := hsettles _ _ hv
    exact hkept

/-- A chain of follows that ends leaves no mark of one without an end. -/
theorem cueSettles_followStuck {p : PlaybackNo} {n : Nat} {u v : State} (h : cueSettles p n u v) :
    v.followStuck = u.followStuck := by
  induction n generalizing u v with
  | zero => rw [h.2]
  | succ n ih =>
    have hcompleted := followStuck_of_coreView (coreView_complete u p)
    unfold cueSettles at h
    split at h
    · rw [h]
    · split at h
      · rw [h, hcompleted]
      · exact (followTakes_followStuck (fun _ _ => ih) h).trans hcompleted

section Taken

variable {s : State} {r : Req} {p : PlaybackNo} {e : IndexEntry} {d : CueData}

@[simp] theorem playbackAt_afterSetUp (s : State) (p : PlaybackNo) (e : IndexEntry) (d : CueData) (by_ : TakenBy) :
    playbackAt (afterSetUp s p e d by_) p = setUp (playbackAt s p) d e by_ :=
  playbackAt_setPlayback_self s p _

theorem afterSetUp_takeOrder (s : State) (p : PlaybackNo) (e : IndexEntry) (d : CueData) (by_ : TakenBy) :
    (afterSetUp s p e d by_).takeOrder = s.takeOrder.filter (· ≠ p) ++
      (if (playbackAt (afterSetUp s p e d by_) p).list = [] then [] else [p]) := by
  rw [playbackAt_afterSetUp]
  simp only [afterSetUp, retake, List.isEmpty_iff]
  split <;> simp

theorem completeIfDone_afterSetUp (by_ : TakenBy) (hf : d.follow ≠ some 0) :
    completeIfDone (afterSetUp s p e d by_) p = afterCue s p e d by_ := by
  have hchain := completeChain_of_no_follow (s := afterSetUp s p e d by_) (p := p) 3839 (by simpa [setUp] using hf)
  unfold completeIfDone afterCue
  dsimp only
  split
  · exact hchain
  · rfl

/-- What a command that takes its cue answers: `takes` of CueCommandsTakeTheirCue, for the command `i`. -/
def Takes (s : State) (r : Req) (p : PlaybackNo) (e : IndexEntry) (d : CueData) (i : Instr) (code : Byte) (by_ : TakenBy) :
    Prop :=
  (d.follow ≠ some 0 → exec i s = .next (answered (afterCue s p e d by_) r code .ok [])) ∧
  (partsDone (playbackAt (afterSetUp s p e d by_) p) = false →
    exec i s = .next (answered (afterSetUp s p e d by_) r code .ok [])) ∧
  ∀ v, cueSettles p chainCues (afterSetUp s p e d by_) v → exec i s = .next (answered v r code .ok [])

/-- A command whose playback starts a cue that is read takes it. -/
theorem takes_of_beginCue {i : Instr} {code : Byte} {by_ : TakenBy} {run : State × Result} (hs : s.followStuck = false)
    (hread : readCue s e.position = .ok d) (hexec : exec i s = settle (answered run.1 r code run.2 []))
    (hrun : run = finishStart (beginCue s p e by_) p) : Takes s r p e d i code by_ := by
  rw [hrun, beginCue_ok by_ hread] at hexec
  have hset : (afterSetUp s p e d by_).followStuck = false := hs
  have ends {v : State} (hv : completeIfDone (afterSetUp s p e d by_) p = v) (hstuck : v.followStuck = false) :
      exec i s = .next (answered v r code .ok []) := by
    rw [hexec, ← settle_answered hstuck, ← hv]
    rfl
  refine ⟨fun hf => ends (completeIfDone_afterSetUp by_ hf) ?_, fun hd => ends ?_ hset, fun v hv => ends ?_ ?_⟩
  · unfold afterCue
    dsimp only
    split
    · exact (followStuck_of_coreView (coreView_complete _ p)).trans hset
    · exact hset
  · rw [completeIfDone, if_neg (Bool.eq_false_iff.mp hd)]
  · exact completeChain_of_cueSettles (by decide) hv
  · exact (cueSettles_followStuck hv).trans hset

end Taken

/-- Settles O48: the lookups, the reading of a cue, and the commands by the start of their cue. -/
theorem cueCommandsTakeTheirCue : Obligations.CueCommandsTakeTheirCue := by
  intro s
  refine ⟨lookups s, cueStartReads s, fun r pb p st e d h hs hp hb hread => ?_⟩
  intro state inCue takes
  refine ⟨afterSetUp_takeOrder s p e d, fun hstate hfirst => ?_, fun c hstate hc hnext => ?_,
    fun c t hstate hc hprev ht => ?_, fun n hstate hn hnamed => ?_⟩
  · exact takes_of_beginCue hs hread (exec_go h hp) (by rw [goPlayback_first hstate, beginFirst_found hb hfirst])
  · exact takes_of_beginCue hs hread (exec_go h hp) (by rw [goPlayback_next hstate, beginNext_found hb hc hnext])
  · exact takes_of_beginCue hs hread (exec_back h hp) (by rw [backPlayback_inCue hstate, beginBack_found hb hc hprev ht])
  · have named (t : Option Word) : Takes s r p e d (.goto r pb n t) 0x32 (gotoTakenBy t) := by
      refine takes_of_beginCue hs hread (exec_goto h hp n t) ?_
      rw [gotoPlayback_named t hstate hn, beginNamed_found t hb hnamed]
    exact ⟨named none, fun t => named (some t)⟩

end Sys2Proof.Machine
end

section
/-! The structure checks of a bank (R49 to R52): what a check passes and reads on the words of a bank, each combinator of
checks in turn, up to the check of a whole record. -/

namespace Sys2Proof.Machine

/-! ## A check on the words of a bank -/

/-- Whether a check passes where each word reads as its stored value. -/
def passes (w : Nat → Word) : Check → Bool
  | .pass => true
  | .fail => false
  | .read off next => passes w (next (w off))

/-- The bank offsets that a check reads, in order. -/
def reads (w : Nat → Word) : Check → List Nat
  | .pass => []
  | .fail => []
  | .read off next => off :: reads w (next (w off))

/-- Every offset that a check reads is one of those that `A` names. -/
def ReadsIn (w : Nat → Word) (A : Nat → Prop) (c : Check) : Prop := ∀ off ∈ reads w c, A off

/-- How a check ends is what it says of the words, or a fault at one of those it reads. -/
theorem runCheck_cases {rd : Nat → Option Word} {w : Nat → Word} (hrd : ∀ off v, rd off = some v → v = w off) (c : Check) :
    (runCheck rd c = .pass ∧ passes w c = true ∧ ∀ off ∈ reads w c, rd off ≠ none) ∨
    (runCheck rd c = .fail ∧ passes w c = false) ∨
    ∃ off, runCheck rd c = .fault off ∧ rd off = none ∧ off ∈ reads w c := by
  induction c with
  | pass => exact .inl ⟨rfl, rfl, by simp [reads]⟩
  | fail => exact .inr (.inl ⟨rfl, rfl⟩)
  | read off next ih =>
    cases hoff : rd off with
    | none => exact .inr (.inr ⟨off, by simp [runCheck, hoff], hoff, by simp [reads]⟩)
    | some v =>
      have hrun : runCheck rd (.read off next) = runCheck rd (next (w off)) := by simp [runCheck, hoff, hrd off v hoff]
      rw [hrun]
      rcases ih (w off) with ⟨h, hpass, hread⟩ | h | ⟨off', h, hnone, hread⟩
      · refine .inl ⟨h, hpass, fun o ho => ?_⟩
        rcases List.mem_cons.mp ho with rfl | ho
        · simp [hoff]
        · exact hread o ho
      · exact .inr (.inl h)
      · exact .inr (.inr ⟨off', h, hnone, List.mem_cons_of_mem off hread⟩)

/-! ## Records as stored -/

/-- Word `i` of the record at position `p`, as a number. -/
def recAt (w : Nat → Word) (p i : Nat) : Nat := (w (recordOff p + i)).toNat

/-- Bit `i` of the flags word of the record at position `p`. -/
def flagAt (w : Nat → Word) (p i : Nat) : Bool := (w (recordOff p + 8)).getLsbD i

/-- The record at position `q` is cue `n` of stack `st`. -/
def Names (w : Nat → Word) (st n q : Nat) : Prop := recAt w q 0 = st ∧ recAt w q 1 = n

section Combinators

variable {w : Nat → Word} {A : Nat → Prop}

theorem passes_readAll (offs : List Nat) (k : List Word → Check) :
    passes w (readAll offs k) = passes w (k (offs.map w)) := by
  induction offs generalizing k with
  | nil => rfl
  | cons off offs ih => exact ih _

theorem reads_readAll (offs : List Nat) (k : List Word → Check) :
    reads w (readAll offs k) = offs ++ reads w (k (offs.map w)) := by
  induction offs generalizing k with
  | nil => rfl
  | cons off offs ih => exact congrArg (off :: ·) (ih _)

theorem readsIn_pass : ReadsIn w A .pass := by simp [ReadsIn, reads]

theorem readsIn_fail : ReadsIn w A .fail := by simp [ReadsIn, reads]

theorem readsIn_test (b : Bool) : ReadsIn w A (test b) := by
  unfold test
  split
  · exact readsIn_pass
  · exact readsIn_fail

theorem readsIn_read {off : Nat} {next : Word → Check} (hoff : A off) (hnext : ReadsIn w A (next (w off))) :
    ReadsIn w A (.read off next) := by
  intro o ho
  rcases List.mem_cons.mp ho with rfl | ho
  · exact hoff
  · exact hnext o ho

theorem readsIn_readAll {offs : List Nat} {k : List Word → Check} (hoffs : ∀ off ∈ offs, A off)
    (hk : ReadsIn w A (k (offs.map w))) : ReadsIn w A (readAll offs k) := by
  rw [ReadsIn, reads_readAll]
  intro o ho
  exact (List.mem_append.mp ho).elim (hoffs o) (hk o)

theorem passes_test (b : Bool) : passes w (test b) = b := by cases b <;> rfl

/-! ## The search for a record -/

/-- The first of the positions listed that holds cue `n` of stack `st`. -/
def found (w : Nat → Word) (st n : Nat) (qs : List Nat) : Option Nat :=
  qs.find? fun q => recAt w q 0 = st ∧ recAt w q 1 = n

theorem found_cons (st n q : Nat) (qs : List Nat) :
    found w st n (q :: qs) = if recAt w q 0 = st ∧ recAt w q 1 = n then some q else found w st n qs := by
  rw [found, List.find?_cons]
  by_cases h : recAt w q 0 = st ∧ recAt w q 1 = n
  · simp [h]
  · simp [h, found]

theorem passes_findRecord (st n : Nat) (qs : List Nat) (k : Option Nat → Check) :
    passes w (findRecord st n qs k) = passes w (k (found w st n qs)) := by
  induction qs with
  | nil => rfl
  | cons q qs ih =>
    rw [found_cons, findRecord, passes, passes]
    change passes w (if recAt w q 0 = st ∧ recAt w q 1 = n then k (some q) else findRecord st n qs k) = _
    split
    · rfl
    · exact ih

theorem readsIn_findRecord {st n : Nat} {qs : List Nat} {k : Option Nat → Check}
    (hqs : ∀ q ∈ qs, A (recordOff q) ∧ A (recordOff q + 1)) (hk : ReadsIn w A (k (found w st n qs))) :
    ReadsIn w A (findRecord st n qs k) := by
  induction qs with
  | nil => exact hk
  | cons q qs ih =>
    obtain ⟨h0, h1⟩ := hqs q (by simp)
    refine readsIn_read h0 (readsIn_read h1 ?_)
    change ReadsIn w A (if recAt w q 0 = st ∧ recAt w q 1 = n then k (some q) else findRecord st n qs k)
    rw [found_cons] at hk
    split
    · rename_i h; rwa [if_pos h] at hk
    · rename_i h
      rw [if_neg h] at hk
      exact ih (fun q' hq' => hqs q' (by simp [hq'])) hk

theorem found_eq_none {st n : Nat} {qs : List Nat} : found w st n qs = none ↔ ∀ q ∈ qs, ¬ Names w st n q := by
  rw [found, List.find?_eq_none]
  simp only [decide_eq_true_eq, Names]

theorem found_range {st n q count : Nat} (h : found w st n (List.range count) = some q) :
    q < count ∧ Names w st n q ∧ ∀ u < q, ¬ Names w st n u := by
  obtain ⟨hnames, hmem, hfirst⟩ := List.find?_range_eq_some.mp h
  have hnames : recAt w q 0 = st ∧ recAt w q 1 = n := of_decide_eq_true hnames
  refine ⟨List.mem_range.mp hmem, hnames, fun u hu hn => ?_⟩
  have hno := hfirst u hu
  simp only [Bool.not_eq_true', decide_eq_false_iff_not] at hno
  exact hno hn

/-! ## The numbers of all records -/

/-- Position, stack and cue number of a record, as `readNumbers` gives them. -/
def numbers (w : Nat → Word) (q : Nat) : Nat × Nat × Nat := (q, recAt w q 0, recAt w q 1)

theorem passes_readNumbers (qs : List Nat) (k : List (Nat × Nat × Nat) → Check) :
    passes w (readNumbers qs k) = passes w (k (qs.map (numbers w))) := by
  induction qs generalizing k with
  | nil => rfl
  | cons q qs ih => exact ih _

theorem readsIn_readNumbers {qs : List Nat} {k : List (Nat × Nat × Nat) → Check}
    (hqs : ∀ q ∈ qs, A (recordOff q) ∧ A (recordOff q + 1)) (hk : ReadsIn w A (k (qs.map (numbers w)))) :
    ReadsIn w A (readNumbers qs k) := by
  induction qs generalizing k with
  | nil => exact hk
  | cons q qs ih =>
    obtain ⟨h0, h1⟩ := hqs q (by simp)
    exact readsIn_read h0 (readsIn_read h1 (ih (fun q' hq' => hqs q' (by simp [hq'])) hk))

/-! ## A record's look (R50) -/

/-- The channel of the look entry before entry `i` of a look at pool entry `j`, or `prev` before the first. -/
def channelBefore (w : Nat → Word) (j prev i : Nat) : Nat := if i = 0 then prev else (w (lookOff (j + i - 1))).toNat

/-- Conditions 6 and 7 of R50 for entry `i` of a look at pool entry `j`. -/
def LookEntryOk (w : Nat → Word) (j prev i : Nat) : Prop :=
  1 ≤ (w (lookOff (j + i))).toNat ∧ (w (lookOff (j + i))).toNat ≤ 512 ∧ (w (lookOff (j + i) + 1)).toNat ≤ 255 ∧
    channelBefore w j prev i < (w (lookOff (j + i))).toNat

theorem lookEntryOk_succ {j prev i : Nat} :
    LookEntryOk w (j + 1) (w (lookOff j)).toNat i ↔ LookEntryOk w j prev (i + 1) := by
  have hentry : j + 1 + i = j + (i + 1) := by omega
  have hbefore : channelBefore w (j + 1) (w (lookOff j)).toNat i = channelBefore w j prev (i + 1) := by
    unfold channelBefore
    rw [if_neg (Nat.succ_ne_zero i)]
    split
    · rename_i h; subst h; rfl
    · congr 3; omega
  rw [LookEntryOk, LookEntryOk, hentry, hbefore]

theorem passes_checkLook (j prev n : Nat) (k : Check) :
    passes w (checkLook j prev n k) = true ↔ (∀ i < n, LookEntryOk w j prev i) ∧ passes w k = true := by
  induction n generalizing j prev with
  | zero => simp [checkLook]
  | succ n ih =>
    rw [checkLook, passes, passes, Nat.forall_lt_succ_left']
    simp only [← lookEntryOk_succ]
    split
    · rename_i h
      rw [ih]
      exact ⟨fun h' => ⟨⟨h, h'.1⟩, h'.2⟩, fun h' => ⟨h'.1.2, h'.2⟩⟩
    · rename_i h
      simp only [passes, Bool.false_eq_true, false_iff]
      rintro ⟨⟨h0, -⟩, -⟩
      exact h h0

theorem readsIn_checkLook {j prev n : Nat} {k : Check} (hlook : ∀ i < 2 * n, A (lookOff j + i)) (hk : ReadsIn w A k) :
    ReadsIn w A (checkLook j prev n k) := by
  induction n generalizing j prev with
  | zero => exact hk
  | succ n ih =>
    refine readsIn_read (hlook 0 (by omega)) (readsIn_read (hlook 1 (by omega)) ?_)
    split
    · refine ih fun i hi => ?_
      have := hlook (i + 2) (by omega)
      rwa [show lookOff j + (i + 2) = lookOff (j + 1) + i by simp only [lookOff]; omega] at this
    · exact readsIn_fail

/-! ## The next cue as stored (R46, R52) -/

/-- The record that the check of R52 takes as the next cue of the record at position `p`: the one its link names, or the one
of the next higher number of the stack; of two with one stack and number the lower one (log 21). -/
def NextRecord (w : Nat → Word) (count p q : Nat) : Prop :=
  q < count ∧ recAt w q 0 = recAt w p 0 ∧
  (flagAt w p 5 = true → recAt w q 1 = recAt w p 10) ∧
  (flagAt w p 5 = false → recAt w p 1 < recAt w q 1 ∧
    ∀ u < count, recAt w u 0 = recAt w p 0 → recAt w p 1 < recAt w u 1 → recAt w q 1 ≤ recAt w u 1) ∧
  ∀ u < q, ¬ (recAt w u 0 = recAt w q 0 ∧ recAt w u 1 = recAt w q 1)

theorem NextRecord.unique {count p q q' : Nat} (h : NextRecord w count p q) (h' : NextRecord w count p q') : q = q' := by
  obtain ⟨hq, hstack, hlink, hhigher, hfirst⟩ := h
  obtain ⟨hq', hstack', hlink', hhigher', hfirst'⟩ := h'
  have hcue : recAt w q 1 = recAt w q' 1 := by
    cases hflag : flagAt w p 5 with
    | true => rw [hlink hflag, hlink' hflag]
    | false =>
      obtain ⟨habove, hleast⟩ := hhigher hflag
      obtain ⟨habove', hleast'⟩ := hhigher' hflag
      exact Nat.le_antisymm (hleast q' hq' hstack' habove') (hleast' q hq hstack habove)
  rcases Nat.lt_trichotomy q q' with hlt | heq | hlt
  · exact absurd ⟨hstack.trans hstack'.symm, hcue⟩ (hfirst' q hlt)
  · exact heq
  · exact absurd ⟨hstack'.trans hstack.symm, hcue.symm⟩ (hfirst q' hlt)

/-- The lower of two cue numbers, the first where they are equal: the fold of `nextStored`. -/
def lower (best : Option (Nat × Nat)) (r : Nat × Nat × Nat) : Option (Nat × Nat) :=
  match best with
  | none => some (r.1, r.2.2)
  | some b => if r.2.2 < b.2 then some (r.1, r.2.2) else some b

/-- What the fold leaves of records in rising position: nothing of none, and otherwise the lowest cue number, at the lowest
position that has it. -/
def Lowest (l : List (Nat × Nat × Nat)) : Option (Nat × Nat) → Prop
  | none => l = []
  | some b => ∃ r ∈ l, b = (r.1, r.2.2) ∧ ∀ r' ∈ l, r.2.2 ≤ r'.2.2 ∧ (r'.2.2 = r.2.2 → r.1 ≤ r'.1)

theorem foldl_lower {l : List (Nat × Nat × Nat)} (h : l.Pairwise fun r r' => r.1 < r'.1) : Lowest l (l.foldl lower none) := by
  induction l using List.reverseRecOn with
  | nil => rfl
  | append_singleton l r ih =>
    obtain ⟨hrising, -, hlast⟩ := List.pairwise_append.mp h
    have hpos : ∀ r' ∈ l, r'.1 < r.1 := fun r' hr' => hlast r' hr' r (List.mem_singleton.mpr rfl)
    specialize ih hrising
    rw [List.foldl_append, List.foldl_cons, List.foldl_nil]
    cases hfold : l.foldl lower none with
    | none =>
      rw [hfold] at ih
      rw [show l = [] from ih]
      exact ⟨r, by simp, rfl, by simp⟩
    | some b =>
      rw [hfold] at ih
      obtain ⟨x, hx, rfl, hleast⟩ := ih
      unfold lower
      dsimp only
      split
      · rename_i hlt
        refine ⟨r, by simp, rfl, fun r' hr' => ?_⟩
        rcases List.mem_append.mp hr' with hr' | hr'
        · have := hleast r' hr'
          exact ⟨by omega, by omega⟩
        · rw [List.mem_singleton.mp hr']
          exact ⟨le_rfl, fun _ => le_rfl⟩
      · rename_i hge
        refine ⟨x, by simp [hx], rfl, fun r' hr' => ?_⟩
        rcases List.mem_append.mp hr' with hr' | hr'
        · exact hleast r' hr'
        · rw [List.mem_singleton.mp hr']
          exact ⟨by omega, fun _ => (hpos x hx).le⟩

/-- The records of stack `st` above cue number `cue`, in rising position. -/
def above (w : Nat → Word) (count st cue : Nat) : List (Nat × Nat × Nat) :=
  ((List.range count).map (numbers w)).filter fun r => r.2.1 = st ∧ cue < r.2.2

theorem above_rising (w : Nat → Word) (count st cue : Nat) :
    (above w count st cue).Pairwise fun r r' => r.1 < r'.1 := by
  refine List.Pairwise.filter _ ?_
  rw [List.pairwise_map]
  exact List.pairwise_lt_range

theorem mem_above {count st cue : Nat} {r : Nat × Nat × Nat} :
    r ∈ above w count st cue ↔ ∃ q < count, recAt w q 0 = st ∧ cue < recAt w q 1 ∧ r = numbers w q := by
  simp only [above, List.mem_filter, List.mem_map, List.mem_range, decide_eq_true_eq]
  constructor
  · rintro ⟨⟨q, hq, rfl⟩, hst, hcue⟩; exact ⟨q, hq, hst, hcue, rfl⟩
  · rintro ⟨q, hq, hst, hcue, rfl⟩; exact ⟨⟨q, hq, rfl⟩, hst, hcue⟩

/-- The next cue as `nextStored` finds it on the words of a bank. -/
def nextFound (w : Nat → Word) (count st cue : Nat) (flags : Word) (link : Nat) : Option (Nat × Nat) :=
  if cueLink flags then (found w st link (List.range count)).map fun q => (q, link)
  else (above w count st cue).foldl lower none

theorem passes_nextStored (count st cue : Nat) (flags : Word) (link : Nat) (k : Option (Nat × Nat) → Check) :
    passes w (nextStored count st cue flags link k) = passes w (k (nextFound w count st cue flags link)) := by
  unfold nextStored nextFound
  split
  · exact passes_findRecord _ _ _ _
  · exact passes_readNumbers _ _

theorem readsIn_nextStored {count st cue link : Nat} {flags : Word} {k : Option (Nat × Nat) → Check}
    (hqs : ∀ q < count, A (recordOff q) ∧ A (recordOff q + 1))
    (hk : ReadsIn w A (k (nextFound w count st cue flags link))) :
    ReadsIn w A (nextStored count st cue flags link k) := by
  have hqs' : ∀ q ∈ List.range count, A (recordOff q) ∧ A (recordOff q + 1) := fun q hq => hqs q (List.mem_range.mp hq)
  unfold nextStored
  unfold nextFound at hk
  split
  · rename_i hlink
    rw [if_pos hlink] at hk
    exact readsIn_findRecord hqs' hk
  · rename_i hlink
    rw [if_neg hlink] at hk
    exact readsIn_readNumbers hqs' hk

/-- From the words of the record at position `p`, `nextFound` finds its next cue, and none only where there is none. -/
theorem nextFound_record {count p link : Nat} (hlink : flagAt w p 5 = true → link = recAt w p 10) :
    match nextFound w count (recAt w p 0) (recAt w p 1) (w (recordOff p + 8)) link with
    | none => ∀ q, ¬ NextRecord w count p q
    | some (q, n) => NextRecord w count p q ∧ n = recAt w q 1 := by
  cases hflag : flagAt w p 5 with
  | true =>
    obtain rfl := hlink hflag
    have hnext : nextFound w count (recAt w p 0) (recAt w p 1) (w (recordOff p + 8)) (recAt w p 10) =
      (found w (recAt w p 0) (recAt w p 10) (List.range count)).map fun q => (q, recAt w p 10) := if_pos hflag
    rw [hnext]
    cases hf : found w (recAt w p 0) (recAt w p 10) (List.range count) with
    | none =>
      rintro q ⟨hq, hstack, hcue, -⟩
      exact found_eq_none.mp hf q (List.mem_range.mpr hq) ⟨hstack, hcue hflag⟩
    | some q =>
      obtain ⟨hq, ⟨hstack, hcue⟩, hfirst⟩ := found_range hf
      refine ⟨⟨hq, hstack, fun _ => hcue, fun h => absurd (hflag.symm.trans h) (by decide), fun u hu hsame => ?_⟩, hcue.symm⟩
      exact hfirst u hu ⟨hsame.1.trans hstack, hsame.2.trans hcue⟩
  | false =>
    have hnext : nextFound w count (recAt w p 0) (recAt w p 1) (w (recordOff p + 8)) link =
      (above w count (recAt w p 0) (recAt w p 1)).foldl lower none := if_neg (Bool.eq_false_iff.mp hflag)
    rw [hnext]
    have hlow := foldl_lower (above_rising w count (recAt w p 0) (recAt w p 1))
    cases hf : (above w count (recAt w p 0) (recAt w p 1)).foldl lower none with
    | none =>
      rw [hf] at hlow
      rintro q ⟨hq, hstack, -, hhigher, -⟩
      exact List.eq_nil_iff_forall_not_mem.mp hlow (numbers w q) (mem_above.mpr ⟨q, hq, hstack, (hhigher hflag).1, rfl⟩)
    | some b =>
      rw [hf] at hlow
      obtain ⟨r, hr, rfl, hleast⟩ := hlow
      obtain ⟨q, hq, hstack, habove, rfl⟩ := mem_above.mp hr
      refine ⟨⟨hq, hstack, fun h => absurd (hflag.symm.trans h) (by decide), fun _ => ⟨habove, fun u hu hu0 hu1 => ?_⟩,
        fun u hu hsame => ?_⟩, rfl⟩
      · exact (hleast (numbers w u) (mem_above.mpr ⟨u, hu, hu0, hu1, rfl⟩)).1
      · have hlow := (hleast (numbers w u) (mem_above.mpr ⟨u, hu.trans hq, hsame.1.trans hstack,
          lt_of_lt_of_eq habove hsame.2.symm, rfl⟩)).2 hsame.2
        exact absurd hu (Nat.not_lt.mpr hlow)

/-! ## Follow cycles (R52) -/

/-- The record at position `q` has FOLLOW present with a follow time of 0. -/
def FollowsAtOnce (w : Nat → Word) (q : Nat) : Prop := flagAt w q 4 = true ∧ recAt w q 9 = 0

theorem followsAtOnce_iff (q : Nat) : followsAtOnce (w (recordOff q + 8)) (w (recordOff q + 9)).toNat = true ↔
    FollowsAtOnce w q := by
  simp only [followsAtOnce, Bool.and_eq_true, beq_iff_eq, FollowsAtOnce]
  rfl

/-- The chain of next cues from the record at position `c`, through records that follow at once, comes back to position `p`
within so many steps. -/
def ComesBack (w : Nat → Word) (count p : Nat) : Nat → Nat → Prop
  | 0, _ => False
  | fuel + 1, c => ∃ q, NextRecord w count c q ∧ (q = p ∨ (FollowsAtOnce w q ∧ ComesBack w count p fuel q))

/-- The record at position `p` is on a cycle of next cues that follow at once. -/
def Cycles (w : Nat → Word) (count p : Nat) : Prop :=
  ∃ (n : Nat) (f : Nat → Nat), 0 < n ∧ f 0 = p ∧ f n = p ∧
    ∀ i < n, flagAt w (f i) 4 = true ∧ recAt w (f i) 9 = 0 ∧ NextRecord w count (f i) (f (i + 1))

theorem passes_checkChain {count : Nat} (h : RecordHead) (k : Check) (fuel : Nat) {c link : Nat}
    (hstack : h.stack = recAt w c 0) (hlink : flagAt w c 5 = true → link = recAt w c 10) :
    passes w (checkChain count h fuel (recAt w c 1) (w (recordOff c + 8)) link k) = true ↔
      ¬ ComesBack w count h.position fuel c ∧ passes w k = true := by
  induction fuel generalizing c link with
  | zero => simp [checkChain, ComesBack]
  | succ fuel ih =>
    rw [checkChain, passes_nextStored, hstack]
    have hnext := nextFound_record (count := count) hlink
    cases hf : nextFound w count (recAt w c 0) (recAt w c 1) (w (recordOff c + 8)) link with
    | none =>
      rw [hf] at hnext
      have hno : ¬ ComesBack w count h.position (fuel + 1) c := fun ⟨q, hq, _⟩ => hnext q hq
      simp [hno]
    | some b =>
      obtain ⟨q, n⟩ := b
      rw [hf] at hnext
      obtain ⟨hnext, rfl⟩ := hnext
      have hback : ComesBack w count h.position (fuel + 1) c ↔
          q = h.position ∨ (FollowsAtOnce w q ∧ ComesBack w count h.position fuel q) := by
        constructor
        · rintro ⟨q', hq', hend⟩
          rwa [hnext.unique hq']
        · exact fun hend => ⟨q, hnext, hend⟩
      rw [hback]
      dsimp only
      split
      · rename_i hq; simp [passes, hq]
      · rename_i hq
        rw [passes, passes]
        split
        · rename_i hat
          rw [followsAtOnce_iff] at hat
          simp only [hq, hat, true_and, false_or]
          have hstack' : h.stack = recAt w q 0 := hstack.trans hnext.2.1.symm
          split
          · exact ih hstack' fun _ => rfl
          · rename_i hflag
            exact ih hstack' fun hflag' => absurd hflag' hflag
        · rename_i hat
          rw [followsAtOnce_iff] at hat
          simp [hq, hat]

theorem readsIn_checkChain {count : Nat} {h : RecordHead} {k : Check} {fuel c link : Nat}
    (hrec : ∀ q < count, ∀ i < 12, A (recordOff q + i)) (hk : ReadsIn w A k)
    (hstack : h.stack = recAt w c 0) (hlink : flagAt w c 5 = true → link = recAt w c 10) :
    ReadsIn w A (checkChain count h fuel (recAt w c 1) (w (recordOff c + 8)) link k) := by
  induction fuel generalizing c link with
  | zero => exact hk
  | succ fuel ih =>
    rw [checkChain, hstack]
    refine readsIn_nextStored (fun q hq => ⟨hrec q hq 0 (by decide), hrec q hq 1 (by decide)⟩) ?_
    have hnext := nextFound_record (count := count) hlink
    cases hf : nextFound w count (recAt w c 0) (recAt w c 1) (w (recordOff c + 8)) link with
    | none => exact hk
    | some b =>
      obtain ⟨q, n⟩ := b
      rw [hf] at hnext
      obtain ⟨hnext, rfl⟩ := hnext
      have hstack' : h.stack = recAt w q 0 := hstack.trans hnext.2.1.symm
      dsimp only
      split
      · exact readsIn_fail
      · refine readsIn_read (hrec q hnext.1 8 (by decide)) (readsIn_read (hrec q hnext.1 9 (by decide)) ?_)
        split
        · split
          · exact readsIn_read (hrec q hnext.1 10 (by decide)) (ih hstack' fun _ => rfl)
          · rename_i hflag
            exact ih hstack' fun hflag' => absurd hflag' hflag
        · exact hk

/-- The path that goes from position `c` on along `f`. -/
def pathFrom (c : Nat) (f : Nat → Nat) : Nat → Nat
  | 0 => c
  | i + 1 => f i

/-- A chain that comes back is a path to the position it comes back to. -/
theorem path_of_comesBack {count p fuel c : Nat} (h : ComesBack w count p fuel c) :
    ∃ (n : Nat) (f : Nat → Nat), 0 < n ∧ f 0 = c ∧ f n = p ∧ (∀ i < n, NextRecord w count (f i) (f (i + 1))) ∧
      ∀ i < n, 0 < i → FollowsAtOnce w (f i) := by
  induction fuel generalizing c with
  | zero => exact h.elim
  | succ fuel ih =>
    obtain ⟨q, hnext, rfl | ⟨hat, hback⟩⟩ := h
    · refine ⟨1, pathFrom c fun _ => q, by decide, rfl, rfl, fun i hi => ?_, fun i hi hi' => by omega⟩
      obtain rfl : i = 0 := by omega
      exact hnext
    · obtain ⟨n, f, -, rfl, hend, hsteps, hfollow⟩ := ih hback
      refine ⟨n + 1, pathFrom c f, by omega, rfl, hend, fun i hi => ?_, fun i hi hi' => ?_⟩
      · cases i with
        | zero => exact hnext
        | succ i => exact hsteps i (by omega)
      · obtain ⟨i, rfl⟩ : ∃ j, i = j + 1 := ⟨i - 1, by omega⟩
        rcases Nat.eq_zero_or_pos i with rfl | hpos
        · exact hat
        · exact hfollow i (by omega) hpos

theorem comesBack_of_path {count p fuel n : Nat} {f : Nat → Nat} (hn : 0 < n) (hle : n ≤ fuel) (hend : f n = p)
    (hsteps : ∀ i < n, NextRecord w count (f i) (f (i + 1))) (hfollow : ∀ i < n, 0 < i → FollowsAtOnce w (f i)) :
    ComesBack w count p fuel (f 0) := by
  induction n generalizing fuel f with
  | zero => omega
  | succ n ih =>
    obtain ⟨fuel, rfl⟩ : ∃ m, fuel = m + 1 := ⟨fuel - 1, by omega⟩
    refine ⟨f 1, hsteps 0 (by omega), ?_⟩
    rcases Nat.eq_zero_or_pos n with rfl | hpos
    · exact .inl hend
    · refine .inr ⟨hfollow 1 (by omega) (by decide), ?_⟩
      exact ih (f := fun i => f (i + 1)) hpos (by omega) hend (fun i hi => hsteps (i + 1) (by omega))
        fun i hi _ => hfollow (i + 1) (by omega) (by omega)

/-- A path of next cues that meets one position twice goes on alike from both. -/
theorem path_repeats {count n i j k : Nat} {f : Nat → Nat} (hsteps : ∀ i < n, NextRecord w count (f i) (f (i + 1)))
    (hij : f i = f j) (hi : i + k ≤ n) (hj : j + k ≤ n) : f (i + k) = f (j + k) := by
  induction k with
  | zero => exact hij
  | succ k ih =>
    have hi' := hsteps (i + k) (by omega)
    have hj' := hsteps (j + k) (by omega)
    rw [ih (by omega) (by omega)] at hi'
    exact hi'.unique hj'

/-- A path of next cues that comes back to where it began has done so within as many steps as there are records. -/
theorem path_returns_early {count n : Nat} {f : Nat → Nat} (hn : 0 < n) (hend : f n = f 0)
    (hsteps : ∀ i < n, NextRecord w count (f i) (f (i + 1))) : ∃ m, 0 < m ∧ m ≤ n ∧ m ≤ count ∧ f m = f 0 := by
  classical
  have hex : ∃ m, 0 < m ∧ m ≤ n ∧ f m = f 0 := ⟨n, hn, le_rfl, hend⟩
  obtain ⟨hm, hmn, hback⟩ := Nat.find_spec hex
  have hmin : ∀ m' < Nat.find hex, ¬ (0 < m' ∧ m' ≤ n ∧ f m' = f 0) := fun m' hm' => Nat.find_min hex hm'
  generalize Nat.find hex = m at hm hmn hback hmin
  have hbound (i : Nat) (hi : i < m) : f (i + 1) < count := (hsteps i (by omega)).1
  have distinct {i j : Nat} (hij : i < j) (hj : j < m) : f (i + 1) ≠ f (j + 1) := by
    intro heq
    have hrest := path_repeats hsteps heq (k := m - (j + 1)) (by omega) (by omega)
    rw [show j + 1 + (m - (j + 1)) = m by omega, hback] at hrest
    exact hmin (i + 1 + (m - (j + 1))) (by omega) ⟨by omega, by omega, hrest⟩
  have hinj : Function.Injective fun i : Fin m => (⟨f (i.val + 1), hbound i.val i.isLt⟩ : Fin count) := by
    intro i j heq
    have heq : f (i.val + 1) = f (j.val + 1) := congrArg Fin.val heq
    rcases Nat.lt_trichotomy i.val j.val with hlt | h | hlt
    · exact absurd heq (distinct hlt j.isLt)
    · exact Fin.ext h
    · exact absurd heq.symm (distinct hlt i.isLt)
  have hcard := Fintype.card_le_of_injective _ hinj
  rw [Fintype.card_fin, Fintype.card_fin] at hcard
  exact ⟨m, hm, hmn, hcard, hback⟩

theorem cycles_iff {count p : Nat} : Cycles w count p ↔ FollowsAtOnce w p ∧ ComesBack w count p count p := by
  constructor
  · rintro ⟨n, f, hn, rfl, hend, hcycle⟩
    have hsteps : ∀ i < n, NextRecord w count (f i) (f (i + 1)) := fun i hi => (hcycle i hi).2.2
    have hfollow : ∀ i < n, FollowsAtOnce w (f i) := fun i hi => ⟨(hcycle i hi).1, (hcycle i hi).2.1⟩
    obtain ⟨m, hm, hmn, hcount, hback⟩ := path_returns_early hn hend hsteps
    exact ⟨hfollow 0 hn, comesBack_of_path hm hcount hback (fun i hi => hsteps i (by omega))
      fun i hi _ => hfollow i (by omega)⟩
  · rintro ⟨hat, hback⟩
    obtain ⟨n, f, hn, hstart, hend, hsteps, hfollow⟩ := path_of_comesBack hback
    refine ⟨n, f, hn, hstart, hend, fun i hi => ?_⟩
    have hati : FollowsAtOnce w (f i) := by
      rcases Nat.eq_zero_or_pos i with rfl | hpos
      · rwa [hstart]
      · exact hfollow i hi hpos
    exact ⟨hati.1, hati.2, hsteps i hi⟩

end Combinators

/-! ## The check of a record -/

/-- The failures of a record by its head (R50). -/
def HeadFails (w : Nat → Word) (p : Nat) : Prop :=
  recAt w p 0 = 0 ∨ 16 < recAt w p 0 ∨ recAt w p 1 = 0 ∨ 64 ≤ recAt w p 8 ∨ 512 < recAt w p 3 ∨ 32767 < recAt w p 2 ∨
    32768 < recAt w p 2 + recAt w p 3

/-- The channel of entry `j` of the look of the record at position `p`. -/
def lookChannel (w : Nat → Word) (p j : Nat) : Nat := (w (lookOff (recAt w p 2 + j))).toNat

/-- The level of entry `j` of the look of the record at position `p`. -/
def lookLevel (w : Nat → Word) (p j : Nat) : Nat := (w (lookOff (recAt w p 2 + j) + 1)).toNat

/-- The failures of a record by its look (R50). -/
def LookFails (w : Nat → Word) (p : Nat) : Prop :=
  ∃ j < recAt w p 3, lookChannel w p j = 0 ∨ 512 < lookChannel w p j ∨ 255 < lookLevel w p j ∨
    (0 < j ∧ lookChannel w p j ≤ lookChannel w p (j - 1))

/-- A record at a lower position has the same stack and cue number (R51). -/
def Twice (w : Nat → Word) (p : Nat) : Prop := ∃ q < p, recAt w q 0 = recAt w p 0 ∧ recAt w q 1 = recAt w p 1

/-- The link names no loaded record (R51). -/
def NoTarget (w : Nat → Word) (count p : Nat) : Prop :=
  flagAt w p 5 = true ∧ ∀ q < count, ¬ (recAt w q 0 = recAt w p 0 ∧ recAt w q 1 = recAt w p 10)

/-- The failures of a loaded record (R50 to R52). -/
def RecordFails (w : Nat → Word) (count p : Nat) : Prop :=
  HeadFails w p ∨ LookFails w p ∨ Twice w p ∨ NoTarget w count p ∨ Cycles w count p

/-- The head of the record at position `p` as stored. -/
def storedHead (w : Nat → Word) (p : Nat) : RecordHead :=
  { position := p, stack := recAt w p 0, cue := recAt w p 1, lookOff := recAt w p 2, lookLen := recAt w p 3,
    flags := w (recordOff p + 8), follow := recAt w p 9, link := recAt w p 10 }

section RecordCheck

variable {w : Nat → Word} {A : Nat → Prop} {count p : Nat}

theorem headOf_stored (w : Nat → Word) (p : Nat) :
    headOf p (((List.range 12).map (recordOff p + ·)).map w) = storedHead w p := rfl

theorem headOk_stored : headOk (storedHead w p) = true ↔ ¬ HeadFails w p := by
  have h8 : (w (recordOff p + 8)).toNat = recAt w p 8 := rfl
  simp only [headOk, cueFlagsOk, Bool.and_eq_true, decide_eq_true_eq, bne_iff_ne, HeadFails]
  simp only [storedHead, h8]
  omega

theorem lookOk_stored : (∀ i < recAt w p 3, LookEntryOk w (recAt w p 2) 0 i) ↔ ¬ LookFails w p := by
  unfold LookFails
  push Not
  refine forall_congr' fun i => forall_congr' fun _ => ?_
  have hch : (w (lookOff (recAt w p 2 + i))).toNat = lookChannel w p i := rfl
  have hlv : (w (lookOff (recAt w p 2 + i) + 1)).toNat = lookLevel w p i := rfl
  rw [LookEntryOk, hch, hlv]
  unfold channelBefore
  split
  · omega
  · rw [show recAt w p 2 + i - 1 = recAt w p 2 + (i - 1) by omega,
      show (w (lookOff (recAt w p 2 + (i - 1)))).toNat = lookChannel w p (i - 1) from rfl]
    omega

theorem passes_checkUnique (k : Check) :
    passes w (checkUnique (storedHead w p) k) = true ↔ ¬ Twice w p ∧ passes w k = true := by
  rw [checkUnique, passes_findRecord]
  cases hf : found w (recAt w p 0) (recAt w p 1) (List.range p) with
  | none =>
    have hno : ¬ Twice w p := fun ⟨q, hq, hsame⟩ => found_eq_none.mp hf q (List.mem_range.mpr hq) hsame
    simp [storedHead, hf, hno]
  | some q =>
    obtain ⟨hq, hsame, -⟩ := found_range hf
    have hyes : Twice w p := ⟨q, hq, hsame⟩
    simp [storedHead, hf, hyes, passes]

theorem passes_checkLinkTarget (hp : p < count) (k : Check) :
    passes w (checkLinkTarget count (storedHead w p) k) = true ↔ ¬ NoTarget w count p ∧ passes w k = true := by
  unfold checkLinkTarget
  split
  · rename_i hcond
    obtain ⟨hflag, hother⟩ := hcond
    have hflag : flagAt w p 5 = true := hflag
    have hother : recAt w p 10 ≠ recAt w p 1 := hother
    rw [passes_findRecord]
    change passes w (if (found w (recAt w p 0) (recAt w p 10) ((List.range count).filter (· ≠ p))).isSome then k else .fail) =
      true ↔ _
    cases hf : found w (recAt w p 0) (recAt w p 10) ((List.range count).filter (· ≠ p)) with
    | none =>
      have hyes : NoTarget w count p := by
        refine ⟨hflag, fun q hq hsame => ?_⟩
        by_cases hqp : q = p
        · rw [hqp] at hsame; exact hother hsame.2.symm
        · exact found_eq_none.mp hf q (by simp [hq, hqp]) hsame
      simp [hyes, passes]
    | some q =>
      have hq : q < count := List.mem_range.mp (List.mem_of_mem_filter (List.mem_of_find?_eq_some hf))
      have hsame : recAt w q 0 = recAt w p 0 ∧ recAt w q 1 = recAt w p 10 := of_decide_eq_true (List.find?_some hf :)
      have hno : ¬ NoTarget w count p := fun ⟨_, hnone⟩ => hnone q hq hsame
      simp [hno]
  · rename_i hcond
    have hno : ¬ NoTarget w count p := by
      rintro ⟨hflag, hnone⟩
      refine hnone p hp ⟨rfl, ?_⟩
      by_contra hother
      exact hcond ⟨hflag, fun h => hother h.symm⟩
    simp [hno]

theorem passes_checkCycle (k : Check) :
    passes w (checkCycle count (storedHead w p) k) = true ↔ ¬ Cycles w count p ∧ passes w k = true := by
  rw [cycles_iff]
  unfold checkCycle
  split
  · rename_i hat
    have hat' : FollowsAtOnce w p := (followsAtOnce_iff p).mp hat
    simp only [hat', true_and]
    exact passes_checkChain (storedHead w p) k count rfl fun _ => rfl
  · rename_i hat
    have hno : ¬ FollowsAtOnce w p := fun h => hat ((followsAtOnce_iff p).mpr h)
    simp [hno]

/-- The checks of a record after its twelve words have been read. -/
def checkHead (count : Nat) (h : RecordHead) : Check :=
  if headOk h then checkLook h.lookOff 0 h.lookLen (checkUnique h (checkLinkTarget count h (checkCycle count h .pass)))
  else .fail

theorem checkRecord_eq (count p : Nat) :
    checkRecord count p = readAll ((List.range 12).map (recordOff p + ·)) fun ws => checkHead count (headOf p ws) := rfl

/-- The check of a loaded record passes exactly where the record has none of the failures of R50 to R52. -/
theorem passes_checkRecord (hp : p < count) : passes w (checkRecord count p) = true ↔ ¬ RecordFails w count p := by
  rw [checkRecord_eq, passes_readAll, headOf_stored, checkHead]
  simp only [RecordFails, not_or]
  split
  · rename_i hhead
    change passes w (checkLook (recAt w p 2) 0 (recAt w p 3) _) = true ↔ _
    rw [passes_checkLook, lookOk_stored, passes_checkUnique, passes_checkLinkTarget hp, passes_checkCycle]
    simp [headOk_stored.mp hhead, passes]
  · rename_i hhead
    rw [headOk_stored, not_not] at hhead
    simp [passes, hhead]

/-- The words that the check of a loaded record reads: words of loaded records, and the record's own look. -/
theorem readsIn_checkRecord (hp : p < count) (hrec : ∀ q < count, ∀ i < 12, A (recordOff q + i))
    (hlook : ∀ i < 2 * recAt w p 3, A (lookOff (recAt w p 2) + i)) : ReadsIn w A (checkRecord count p) := by
  have hnumbers : ∀ q < count, A (recordOff q) ∧ A (recordOff q + 1) :=
    fun q hq => ⟨hrec q hq 0 (by decide), hrec q hq 1 (by decide)⟩
  have hcycle : ReadsIn w A (checkCycle count (storedHead w p) .pass) := by
    unfold checkCycle
    split
    · exact readsIn_checkChain hrec readsIn_pass rfl fun _ => rfl
    · exact readsIn_pass
  have htarget : ReadsIn w A (checkLinkTarget count (storedHead w p) (checkCycle count (storedHead w p) .pass)) := by
    unfold checkLinkTarget
    split
    · refine readsIn_findRecord (fun q hq => hnumbers q (List.mem_range.mp (List.mem_of_mem_filter hq))) ?_
      split
      · exact hcycle
      · exact readsIn_fail
    · exact hcycle
  rw [checkRecord_eq]
  refine readsIn_readAll (fun off hoff => ?_) ?_
  · obtain ⟨i, hi, rfl⟩ := List.mem_map.mp hoff
    exact hrec p hp i (List.mem_range.mp hi)
  · rw [headOf_stored, checkHead]
    split
    · refine readsIn_checkLook hlook ?_
      refine readsIn_findRecord (fun q hq => hnumbers q ((List.mem_range.mp hq).trans hp)) ?_
      split
      · exact readsIn_fail
      · exact htarget
    · exact readsIn_fail

end RecordCheck

end Sys2Proof.Machine
end

section
/-! The structure pass of a bank (R49, R159, R160, R168): which items fail, the examination run whole, and the pass of a VERIFY
word by word, which ends as the examination does. -/

namespace Sys2Proof.Machine

/-! ## The items of the pass -/

/-- A word of bank `b` as stored, by its offset. -/
def bankWord (s : State) (b : Bank) (off : Nat) : Word := (stored s (bankBase b + off)).val

/-- The cue count of bank `b` as stored. -/
def storedCount (s : State) (b : Bank) : Nat := (bankWord s b 2).toNat

theorem readBank_eq_some {s : State} {b : Bank} {off : Nat} {v : Word} (h : readBank s b off = some v) :
    v = bankWord s b off := (readWord_eq_some.mp h).2.symm

/-- The failures of the region whose first word is at offset `off` (R159). -/
def RegionFails (w : Nat → Word) (off : Nat) : Prop :=
  (w off).toNat = 0 ∨ 1024 < (w off).toNat ∨ 1025 < (w off).toNat + (w (off + 1)).toNat ∨ 64 ≤ (w (off + 2)).toNat ∨
    1024 < (w (off + 4)).toNat ∨ ((w (off + 2)).getLsbD 5 = true ∧ (w (off + 4)).toNat = 0)

/-- The failure of an item (R49, R159). -/
def ItemFails (w : Nat → Word) (count : Nat) : CheckItem → Prop
  | .cueCount => 960 < (w cueCountOff).toNat
  | .channel ch => 4 ≤ (w (channelOff ch)).toNat
  | .patch i => if i % 2 = 0 then 512 < (w (515 + i)).toNat else 255 < (w (515 + i)).toNat
  | .region r => RegionFails w (regionOff r)
  | .record p => RecordFails w count p

/-- The bank offsets at which something fails. -/
def Fails (w : Nat → Word) (count off : Nat) : Prop :=
  (off = 2 ∧ 960 < count) ∨ (3 ≤ off ∧ off < 515 ∧ 4 ≤ (w off).toNat) ∨
  (∃ c, 1 ≤ c ∧ c ≤ 1024 ∧ ((off = 513 + 2 * c ∧ 512 < (w off).toNat) ∨ (off = 514 + 2 * c ∧ 255 < (w off).toNat))) ∨
  (∃ r, 1 ≤ r ∧ r ≤ 8 ∧ off = 2555 + 8 * r ∧ RegionFails w off) ∨
  ∃ p < count, off = 2627 + 12 * p ∧ RecordFails w count p

/-- The items of a bank with a cue count, in address order. -/
def items (count : Nat) : List CheckItem := .cueCount :: tableItems count

/-- The items there are. -/
def IsItem (count : Nat) : CheckItem → Prop
  | .cueCount => True
  | .channel ch => 1 ≤ ch ∧ ch ≤ 512
  | .patch i => i < 2048
  | .region r => 1 ≤ r ∧ r ≤ 8
  | .record p => p < count

theorem mem_items {count : Nat} {item : CheckItem} : item ∈ items count ↔ IsItem count item := by
  have h512 (n : Nat) : n < 1 + 512 ↔ n ≤ 512 := by omega
  have h8 (n : Nat) : n < 1 + 8 ↔ n ≤ 8 := by omega
  cases item <;> simp [items, tableItems, IsItem, List.mem_range'_1, h512, h8]

theorem fails_iff {w : Nat → Word} {count off : Nat} (hcount : count = (w 2).toNat) :
    Fails w count off ↔ ∃ item ∈ items count, itemOff item = off ∧ ItemFails w count item := by
  simp only [mem_items]
  constructor
  · rintro (⟨rfl, h⟩ | ⟨hlo, hhi, h⟩ | ⟨c, hlo, hhi, ⟨rfl, h⟩ | ⟨rfl, h⟩⟩ | ⟨r, hlo, hhi, rfl, h⟩ | ⟨p, hp, rfl, h⟩)
    · exact ⟨.cueCount, trivial, rfl, hcount ▸ h⟩
    · obtain ⟨ch, rfl⟩ : ∃ ch, off = 2 + ch := ⟨off - 2, by omega⟩
      exact ⟨.channel ch, ⟨by omega, by omega⟩, rfl, h⟩
    · have hoff : 515 + 2 * (c - 1) = 513 + 2 * c := by omega
      refine ⟨.patch (2 * (c - 1)), show _ < 2048 by omega, hoff, ?_⟩
      rw [ItemFails, if_pos (by omega), hoff]
      exact h
    · have hoff : 515 + (2 * (c - 1) + 1) = 514 + 2 * c := by omega
      refine ⟨.patch (2 * (c - 1) + 1), show _ < 2048 by omega, hoff, ?_⟩
      rw [ItemFails, if_neg (by omega), hoff]
      exact h
    · exact ⟨.region r, ⟨hlo, hhi⟩, rfl, h⟩
    · exact ⟨.record p, hp, rfl, h⟩
  · rintro ⟨item, hitem, rfl, h⟩
    cases item with
    | cueCount => exact .inl ⟨rfl, hcount ▸ h⟩
    | channel ch =>
      have hrange : 1 ≤ ch ∧ ch ≤ 512 := hitem
      exact .inr (.inl ⟨show 3 ≤ 2 + ch by omega, show 2 + ch < 515 by omega, h⟩)
    | patch i =>
      have hrange : i < 2048 := hitem
      refine .inr (.inr (.inl ⟨i / 2 + 1, by omega, by omega, ?_⟩))
      have h : if i % 2 = 0 then 512 < (w (515 + i)).toNat else 255 < (w (515 + i)).toNat := h
      split at h
      · exact .inl ⟨show 515 + i = _ by omega, h⟩
      · exact .inr ⟨show 515 + i = _ by omega, h⟩
    | region r =>
      have hrange : 1 ≤ r ∧ r ≤ 8 := hitem
      exact .inr (.inr (.inr (.inl ⟨r, hrange.1, hrange.2, rfl, h⟩)))
    | record p => exact .inr (.inr (.inr (.inr ⟨p, hitem, rfl, h⟩)))

/-- An item's next one, at a higher offset. -/
def Precedes (count : Nat) (a b : CheckItem) : Prop := nextItem count a = some b ∧ itemOff a < itemOff b

theorem isChain_map_range' {R : CheckItem → CheckItem → Prop} (f : Nat → CheckItem) (lo n : Nat)
    (h : ∀ i, i + 1 < lo + n → R (f i) (f (i + 1))) : ((List.range' lo n).map f).IsChain R := by
  rw [List.isChain_map]
  refine (List.isChain_range' lo n 1).imp_of_mem_imp fun i j _ hj hij => ?_
  subst hij
  exact h i (List.mem_range'_1.mp hj).2

/-- The items in their order: each is the next of the one before it. -/
theorem items_chain (count : Nat) : (items count).IsChain (Precedes count) := by
  have channels := isChain_map_range' (R := Precedes count) .channel 1 512 fun i hi =>
    ⟨if_pos (by omega), show 2 + i < 2 + (i + 1) by omega⟩
  have patches := isChain_map_range' (R := Precedes count) .patch 0 2048 fun i hi =>
    ⟨if_pos (by omega), show 515 + i < 515 + (i + 1) by omega⟩
  have regions := isChain_map_range' (R := Precedes count) .region 1 8 fun i hi =>
    ⟨if_pos (by omega), show 2555 + 8 * i < 2555 + 8 * (i + 1) by omega⟩
  have records := isChain_map_range' (R := Precedes count) .record 0 count fun i hi =>
    ⟨if_pos (by omega), show 2627 + 12 * i < 2627 + 12 * (i + 1) by omega⟩
  unfold items tableItems
  rw [List.range_eq_range', List.range_eq_range', List.isChain_cons]
  refine ⟨?_, ((channels.append patches ?_).append regions ?_).append records ?_⟩
  · simp [List.head?_range', Precedes, nextItem, itemOff, channelOff, cueCountOff]
  · simp [List.head?_range', List.getLast?_range', Precedes, nextItem, itemOff, channelOff]
  · simp [List.head?_range', List.getLast?_range', Precedes, nextItem, itemOff, regionOff]
  · rcases Nat.eq_zero_or_pos count with rfl | hcount
    · simp
    · simp [List.head?_range', List.getLast?_range', Precedes, nextItem, itemOff, regionOff, recordOff, hcount,
        Nat.pos_iff_ne_zero.mp hcount]

/-- After the last item there is none. -/
theorem nextItem_last {count : Nat} {a : CheckItem} (h : a ∈ (items count).getLast?) : nextItem count a = none := by
  rcases Nat.eq_zero_or_pos count with rfl | hcount
  · have hlast : .region 8 = a := by
      simpa [items, tableItems, List.getLast?_cons, List.getLast?_append, List.getLast?_range'] using h
    rw [← hlast]; rfl
  · have hlast : .record (count - 1) = a := by
      simpa [items, tableItems, List.getLast?_cons, List.getLast?_append, List.getLast?_range', List.range_eq_range',
        Nat.pos_iff_ne_zero.mp hcount] using h
    rw [← hlast]
    exact if_neg (by omega)

/-! ## The check of an item -/

section Items

variable {w : Nat → Word} {A : Nat → Prop} {count : Nat}

theorem regionOk_iff (off : Nat) :
    regionOk (((List.range 8).map (off + ·)).map w) = true ↔ ¬ RegionFails w off := by
  have hwords : ((List.range 8).map (off + ·)).map w =
      [w off, w (off + 1), w (off + 2), w (off + 3), w (off + 4), w (off + 5), w (off + 6), w (off + 7)] := rfl
  rw [hwords]
  simp only [regionOk, regionFlagsOk, regionEcho, List.getD_cons_zero, List.getD_cons_succ, Bool.and_eq_true,
    Bool.or_eq_true, Bool.not_eq_true', decide_eq_true_eq, RegionFails]
  cases (w (off + 2)).getLsbD 5 <;> simp <;> omega

/-- The check of an item passes exactly where the item does not fail. -/
theorem passes_checkItem {item : CheckItem} (h : IsItem count item) :
    passes w (checkItem count item) = true ↔ ¬ ItemFails w count item := by
  cases item with
  | cueCount => simp [checkItem, passes, passes_test, ItemFails]
  | channel ch => simp [checkItem, passes, passes_test, ItemFails, channelEntryOk]
  | patch i =>
    rw [checkItem, passes, passes_test, ItemFails]
    split <;> simp
  | region r => rw [checkItem, passes_readAll, passes_test, regionOk_iff, ItemFails]
  | record p => exact passes_checkRecord h

/-- The words that the check of an item reads. -/
def Examined (w : Nat → Word) (count off : Nat) : Prop :=
  (2 ≤ off ∧ off < 2627 + 12 * count) ∨ ∃ p < count, ∃ j < 2 * recAt w p 3, off = 14147 + 2 * recAt w p 2 + j

theorem readsIn_checkItem {item : CheckItem} (h : IsItem count item) :
    ReadsIn w (Examined w count) (checkItem count item) := by
  cases item with
  | cueCount => exact readsIn_read (.inl ⟨le_rfl, show 2 < _ by omega⟩) (readsIn_test _)
  | channel ch =>
    have hrange : 1 ≤ ch ∧ ch ≤ 512 := h
    exact readsIn_read (.inl ⟨show 2 ≤ 2 + ch by omega, show 2 + ch < _ by omega⟩) (readsIn_test _)
  | patch i =>
    have hrange : i < 2048 := h
    exact readsIn_read (.inl ⟨by omega, by omega⟩) (readsIn_test _)
  | region r =>
    have hrange : 1 ≤ r ∧ r ≤ 8 := h
    refine readsIn_readAll (fun off hoff => ?_) (readsIn_test _)
    obtain ⟨i, hi, rfl⟩ := List.mem_map.mp hoff
    have hi := List.mem_range.mp hi
    exact .inl ⟨show 2 ≤ 2555 + 8 * r + i by omega, show 2555 + 8 * r + i < _ by omega⟩
  | record p =>
    have hp : p < count := h
    exact readsIn_checkRecord hp (fun q hq i hi => .inl ⟨show 2 ≤ 2627 + 12 * q + i by omega,
      show 2627 + 12 * q + i < _ by omega⟩) fun i hi => .inr ⟨p, hp, i, hi, rfl⟩

/-! ## The examination run whole -/

/-- Items checked in turn all pass, or the first that does not decides. -/
theorem runItems_cases (rd : Nat → Option Word) (count : Nat) (l : List CheckItem) :
    (runItems rd count l = .pass ∧ ∀ i ∈ l, runCheck rd (checkItem count i) = .pass) ∨
    ∃ before i rest, l = before ++ i :: rest ∧ (∀ j ∈ before, runCheck rd (checkItem count j) = .pass) ∧
      runCheck rd (checkItem count i) ≠ .pass ∧ runItems rd count l = runCheck rd (checkItem count i) := by
  induction l with
  | nil => exact .inl ⟨rfl, by simp⟩
  | cons i l ih =>
    by_cases hi : runCheck rd (checkItem count i) = .pass
    · have hrest : runItems rd count (i :: l) = runItems rd count l := by simp [runItems, hi]
      rw [hrest]
      rcases ih with ⟨hall, hpass⟩ | ⟨before, j, rest, rfl, hbefore, hj, hend⟩
      · exact .inl ⟨hall, by simpa [hi] using hpass⟩
      · exact .inr ⟨i :: before, j, rest, rfl, by simpa [hi] using hbefore, hj, hend⟩
    · refine .inr ⟨[], i, l, rfl, by simp, hi, ?_⟩
      unfold runItems
      split
      · rename_i h; exact absurd h hi
      · rfl

end Items

section Examine

variable {s : State} {b : Bank}

theorem examine_eq (s : State) (b : Bank) :
    examine s b = runItems (readBank s b) (storedCount s b) (items (storedCount s b)) := by
  unfold examine items
  dsimp only
  cases hread : readBank s b cueCountOff with
  | none => simp [runItems, runCheck, checkItem, hread]
  | some n =>
    have hn : storedCount s b = n.toNat := congrArg BitVec.toNat (readBank_eq_some hread).symm
    dsimp only
    rw [hn]
    split
    · rename_i hle; simp [runItems, runCheck, checkItem, hread, test, hle]
    · rename_i hle; simp [runItems, runCheck, checkItem, hread, test, hle]

/-- How the check of one item of bank `b` ends. -/
abbrev itemVerdict (s : State) (b : Bank) (item : CheckItem) : Verdict :=
  runCheck (readBank s b) (checkItem (storedCount s b) item)

theorem itemVerdict_pass {item : CheckItem} (hitem : item ∈ items (storedCount s b)) (h : itemVerdict s b item = .pass) :
    ¬ ItemFails (bankWord s b) (storedCount s b) item ∧
      ∀ off ∈ reads (bankWord s b) (checkItem (storedCount s b) item), readBank s b off ≠ none := by
  rcases runCheck_cases (fun _ _ => readBank_eq_some) (checkItem (storedCount s b) item) with
    ⟨-, hpass, hread⟩ | ⟨hend, -⟩ | ⟨off, hend, -⟩
  · exact ⟨(passes_checkItem (mem_items.mp hitem)).mp hpass, hread⟩
  · exact Verdict.noConfusion (h.symm.trans hend)
  · exact Verdict.noConfusion (h.symm.trans hend)

theorem itemVerdict_fail {item : CheckItem} (hitem : item ∈ items (storedCount s b)) (h : itemVerdict s b item = .fail) :
    ItemFails (bankWord s b) (storedCount s b) item := by
  rcases runCheck_cases (fun _ _ => readBank_eq_some) (checkItem (storedCount s b) item) with
    ⟨hend, -⟩ | ⟨-, hfail⟩ | ⟨off, hend, -⟩
  · exact Verdict.noConfusion (h.symm.trans hend)
  · by_contra hnot
    rw [(passes_checkItem (mem_items.mp hitem)).mpr hnot] at hfail
    cases hfail
  · exact Verdict.noConfusion (h.symm.trans hend)

theorem itemVerdict_fault {item : CheckItem} {off : Nat} (hitem : item ∈ items (storedCount s b))
    (h : itemVerdict s b item = .fault off) :
    readBank s b off = none ∧ Examined (bankWord s b) (storedCount s b) off := by
  rcases runCheck_cases (fun _ _ => readBank_eq_some) (checkItem (storedCount s b) item) with
    ⟨hend, -⟩ | ⟨hend, -⟩ | ⟨off', hend, hnone, hread⟩
  · exact Verdict.noConfusion (h.symm.trans hend)
  · exact Verdict.noConfusion (h.symm.trans hend)
  · obtain rfl : off = off' := Verdict.fault.inj (h.symm.trans hend)
    exact ⟨hnone, readsIn_checkItem (mem_items.mp hitem) off hread⟩

/-- The examination passes every item, or ends at the first that does not pass, as its check does. -/
theorem examine_cases (s : State) (b : Bank) :
    (examine s b = .pass ∧ ∀ i ∈ items (storedCount s b), itemVerdict s b i = .pass) ∨
    ∃ before i rest, items (storedCount s b) = before ++ i :: rest ∧ (∀ j ∈ before, itemVerdict s b j = .pass) ∧
      itemVerdict s b i ≠ .pass ∧ examine s b = itemVerdict s b i := by
  rw [examine_eq]
  exact runItems_cases _ _ _

theorem stored_fails_iff {off : Nat} : Fails (bankWord s b) (storedCount s b) off ↔
    ∃ item ∈ items (storedCount s b), itemOff item = off ∧ ItemFails (bankWord s b) (storedCount s b) item :=
  fails_iff rfl

theorem itemVerdict_of_examine_pass (h : examine s b = .pass) {i : CheckItem} (hi : i ∈ items (storedCount s b)) :
    itemVerdict s b i = .pass := by
  rcases examine_cases s b with ⟨-, hall⟩ | ⟨before, j, rest, -, -, hj, hend⟩
  · exact hall i hi
  · exact absurd (hend.symm.trans h) hj

theorem not_fails_of_examine_pass (h : examine s b = .pass) (off : Nat) :
    ¬ Fails (bankWord s b) (storedCount s b) off := by
  rw [stored_fails_iff]
  rintro ⟨item, hitem, -, hfails⟩
  exact (itemVerdict_pass hitem (itemVerdict_of_examine_pass h hitem)).1 hfails

/-- The first item that does not pass stands above every one before it and below every one after it. -/
theorem lowest_fails {before rest : List CheckItem} {i : CheckItem}
    (hitems : items (storedCount s b) = before ++ i :: rest) (hbefore : ∀ j ∈ before, itemVerdict s b j = .pass)
    (hi : itemVerdict s b i = .fail) :
    Fails (bankWord s b) (storedCount s b) (itemOff i) ∧
      ∀ o < itemOff i, ¬ Fails (bankWord s b) (storedCount s b) o := by
  have hmem : ∀ j, j ∈ items (storedCount s b) ↔ j ∈ before ∨ j = i ∨ j ∈ rest := by simp [hitems]
  refine ⟨stored_fails_iff.mpr ⟨i, (hmem i).mpr (by simp), rfl, itemVerdict_fail ((hmem i).mpr (by simp)) hi⟩, fun o ho => ?_⟩
  rw [stored_fails_iff]
  rintro ⟨j, hj, rfl, hfails⟩
  have hrising : (items (storedCount s b)).IsChain fun a b => itemOff a < itemOff b :=
    (items_chain _).imp fun _ _ h => h.2
  have hafter : ∀ j ∈ rest, itemOff i < itemOff j := by
    have : IsTrans CheckItem fun a b => itemOff a < itemOff b := ⟨fun _ _ _ => Nat.lt_trans⟩
    have hpairs := hrising.pairwise
    rw [hitems] at hpairs
    exact (List.pairwise_cons.mp (List.pairwise_append.mp hpairs).2.1).1
  rcases (hmem j).mp hj with hjb | rfl | hjr
  · exact (itemVerdict_pass hj (hbefore j hjb)).1 hfails
  · exact absurd ho (Nat.lt_irrefl _)
  · exact absurd (hafter j hjr) (Nat.not_lt.mpr ho.le)

theorem examine_fault {off : Nat} (h : examine s b = .fault off) :
    readBank s b off = none ∧ Examined (bankWord s b) (storedCount s b) off := by
  rcases examine_cases s b with ⟨hpass, -⟩ | ⟨before, i, rest, hitems, -, -, hend⟩
  · exact Verdict.noConfusion (h.symm.trans hpass)
  · exact itemVerdict_fault (by simp [hitems]) (hend.symm.trans h)

end Examine

/-! ## The structure pass of a VERIFY, word by word -/

theorem feed_append (c : Check) (ws vs : List Word) : feed c (ws ++ vs) = feed (feed c ws) vs := by
  induction ws generalizing c with
  | nil => cases c <;> rfl
  | cons w ws ih =>
    cases c with
    | pass => cases vs <;> rfl
    | fail => cases vs <;> rfl
    | read off next => exact ih (next w)

/-- A state whose VERIFY of bank `b` stands at an item of the structure pass. -/
def inPass (s : State) (b : Bank) (stale : Bool) (count : Nat) (item : CheckItem) (got : List Word) (reads : Nat) : State :=
  { s with slot := .verify b (.tables count item got) stale reads }

theorem inPass_of_slot {s : State} {b : Bank} {stale : Bool} {count : Nat} {item : CheckItem} {got : List Word} {reads : Nat}
    (h : s.slot = .verify b (.tables count item got) stale reads) : inPass s b stale count item got reads = s := by
  rw [inPass, ← h]

section Pass

variable {s : State} {b : Bank} {stale : Bool} {count : Nat} {item : CheckItem} {got : List Word} {reads : Nat}

theorem verifyOne_faulted {off : Nat} {next : Word → Check}
    (hslot : s.slot = .verify b (.tables count item got) stale reads)
    (hfeed : feed (checkItem count item) got = .read off next) (hword : readBank s b off = none) :
    verifyOne s = verifyFault s b stale off := by
  simp only [verifyOne, hslot, verifyReads, hfeed, hword]

theorem verifyOne_word {off : Nat} {next : Word → Check} {w : Word}
    (hslot : s.slot = .verify b (.tables count item got) stale reads)
    (hfeed : feed (checkItem count item) got = .read off next) (hword : readBank s b off = some w) :
    verifyOne s = tablesStep s b stale reads count item got w := by
  simp only [verifyOne, hslot, verifyReads, hfeed, hword]

theorem tablesStep_read {off : Nat} {next : Word → Check} {w : Word}
    (h : feed (checkItem count item) (got ++ [w]) = .read off next) :
    tablesStep s b stale reads count item got w = inPass s b stale count item (got ++ [w]) (reads + 1) := by
  simp only [tablesStep, h]; rfl

theorem tablesStep_fail {w : Word} (h : feed (checkItem count item) (got ++ [w]) = .fail) :
    tablesStep s b stale reads count item got w = endVerify s b stale .structFail (bankBase b + itemOff item) := by
  simp only [tablesStep, h]

/-- The cue count that the pass goes on with after an item whose last word is `w`. -/
def countAfter (item : CheckItem) (count : Nat) (w : Word) : Nat := if item = .cueCount then w.toNat else count

theorem tablesStep_next {w : Word} {i : CheckItem} (h : feed (checkItem count item) (got ++ [w]) = .pass)
    (hnext : nextItem (countAfter item count w) item = some i) :
    tablesStep s b stale reads count item got w = inPass s b stale (countAfter item count w) i [] (reads + 1) := by
  unfold countAfter at hnext
  simp only [tablesStep, h, hnext]
  rfl

theorem tablesStep_last {w : Word} (h : feed (checkItem count item) (got ++ [w]) = .pass)
    (hnext : nextItem (countAfter item count w) item = none) :
    tablesStep s b stale reads count item got w = endVerify s b stale .pass 0 := by
  unfold countAfter at hnext
  simp only [tablesStep, h, hnext]

/-- What the structure pass of a VERIFY of bank `b` comes to at the end of an item, by how the item's check ends; `u` is the
state at the item's last word. -/
def itemEnd (s u : State) (b : Bank) (stale : Bool) (count : Nat) (item : CheckItem) (reads : Nat) : Verdict → State
  | .fault off => verifyFault u b stale off
  | .fail => endVerify u b stale .structFail (bankBase b + itemOff item)
  | .pass =>
    match nextItem count item with
    | some i => inPass s b stale count i [] reads
    | none => endVerify u b stale .pass 0

/-- A word that ends an item's check with a pass takes VERIFY to the item's end. -/
theorem tablesStep_pass {w : Word} {reads' : Nat} (h : feed (checkItem count item) (got ++ [w]) = .pass) :
    tablesStep (inPass s b stale count item got reads) b stale reads' count item got w =
      itemEnd s (inPass s b stale count item got reads) b stale (countAfter item count w) item (reads' + 1) .pass := by
  cases hnext : nextItem (countAfter item count w) item with
  | none => simp only [tablesStep_last h hnext, itemEnd, hnext]
  | some i =>
    rw [tablesStep_next h hnext]
    simp only [itemEnd, hnext]
    rfl

/-- A state within the structure pass: only the slot differs. -/
def WithinPass (s : State) (b : Bank) (stale : Bool) (u : State) : Prop :=
  ∃ count item got reads, u = inPass s b stale count item got reads

/-- The words of an item are read one by one until its check has ended. -/
theorem item_ends {c : Check} (hitem : item ≠ .cueCount) (hfeed : feed (checkItem count item) got = c)
    (hread : ∃ off next, c = .read off next) :
    ∃ n u reads', WithinPass s b stale u ∧ verifyOne^[n] (inPass s b stale count item got reads) =
      itemEnd s u b stale count item reads' (runCheck (readBank s b) c) := by
  induction c generalizing got reads with
  | pass => obtain ⟨_, _, h⟩ := hread; cases h
  | fail => obtain ⟨_, _, h⟩ := hread; cases h
  | read off next ih =>
    have hhere : WithinPass s b stale (inPass s b stale count item got reads) := ⟨_, _, _, _, rfl⟩
    cases hword : readBank s b off with
    | none =>
      have hrun : runCheck (readBank s b) (.read off next) = .fault off := by simp [runCheck, hword]
      have hstep := verifyOne_faulted (s := inPass s b stale count item got reads) rfl hfeed hword
      exact ⟨1, _, 0, hhere, by rw [hrun]; exact hstep⟩
    | some w =>
      have hstep := verifyOne_word (s := inPass s b stale count item got reads) rfl hfeed hword
      have hfeed' : feed (checkItem count item) (got ++ [w]) = next w := by
        rw [feed_append, hfeed]
        show feed (next w) [] = next w
        cases next w <;> rfl
      have hrun : runCheck (readBank s b) (.read off next) = runCheck (readBank s b) (next w) := by simp [runCheck, hword]
      rw [hrun]
      cases hnext : next w with
      | pass =>
        refine ⟨1, _, reads + 1, hhere, hstep.trans ?_⟩
        rw [tablesStep_pass (hfeed'.trans hnext), countAfter, if_neg hitem]
        rfl
      | fail => exact ⟨1, _, 0, hhere, hstep.trans (tablesStep_fail (hfeed'.trans hnext))⟩
      | read off' next' =>
        obtain ⟨n, u, reads', hu, hend⟩ := ih w (got := got ++ [w]) (reads := reads + 1) hfeed' ⟨off', next', hnext⟩
        rw [hnext] at hend
        refine ⟨n + 1, u, reads', hu, ?_⟩
        rw [Function.iterate_succ_apply, hstep, ← hend]
        exact congrArg _ (tablesStep_read (hfeed'.trans hnext))

theorem checkItem_reads (count : Nat) (item : CheckItem) : ∃ off next, checkItem count item = .read off next := by
  cases item <;> exact ⟨_, _, rfl⟩

/-- The cue count is the pass's first word, and the count that the pass goes on with. -/
theorem cueCount_ends :
    ∃ u reads', WithinPass s b stale u ∧ verifyOne (inPass s b stale count .cueCount [] reads) =
      itemEnd s u b stale (storedCount s b) .cueCount reads' (itemVerdict s b .cueCount) := by
  refine ⟨inPass s b stale count .cueCount [] reads, reads + 1, ⟨_, _, _, _, rfl⟩, ?_⟩
  cases hword : readBank s b cueCountOff with
  | none =>
    have hend : itemVerdict s b .cueCount = .fault cueCountOff := by simp [itemVerdict, checkItem, runCheck, hword]
    rw [hend]
    exact verifyOne_faulted (got := []) rfl rfl hword
  | some w =>
    have hcount : countAfter .cueCount count w = storedCount s b := congrArg BitVec.toNat (readBank_eq_some hword)
    have hstep := verifyOne_word (s := inPass s b stale count .cueCount [] reads) (got := []) rfl rfl hword
    have hrun : itemVerdict s b .cueCount = runCheck (readBank s b) (test (w.toNat ≤ 960)) := by
      simp [itemVerdict, checkItem, runCheck, hword]
    have hfeed : feed (checkItem count .cueCount) ([] ++ [w]) = test (w.toNat ≤ 960) := by
      show feed (test _) [] = test _
      cases test _ <;> rfl
    rw [hrun, hstep]
    by_cases hle : w.toNat ≤ 960
    · have htest : test (w.toNat ≤ 960) = .pass := by simp [test, hle]
      rw [htest, tablesStep_pass (hfeed.trans htest), hcount]
      rfl
    · have htest : test (w.toNat ≤ 960) = .fail := by simp [test, hle]
      rw [htest, tablesStep_fail (hfeed.trans htest)]
      rfl

/-- The pass from the first word of an item to the item's end. The count that the slot holds is the bank's, or the item is the
cue count itself. -/
theorem item_passes (hcount : item = .cueCount ∨ count = storedCount s b) :
    ∃ n u reads', WithinPass s b stale u ∧ verifyOne^[n] (inPass s b stale count item [] reads) =
      itemEnd s u b stale (storedCount s b) item reads' (itemVerdict s b item) := by
  by_cases hitem : item = .cueCount
  · subst hitem
    obtain ⟨u, reads', hu, hend⟩ := cueCount_ends (s := s) (b := b) (stale := stale) (count := count) (reads := reads)
    exact ⟨1, u, reads', hu, hend⟩
  · obtain rfl := hcount.resolve_left hitem
    obtain ⟨off, next, hread⟩ := checkItem_reads (storedCount s b) item
    refine item_ends (got := []) hitem ?_ ⟨off, next, hread⟩
    rw [hread]; rfl

/-- While the items pass, the pass goes from item to item. -/
theorem pass_reaches {before : List CheckItem} {first i : CheckItem} (hfirst : first ∈ (before ++ [i]).head?)
    (hchain : (before ++ [i]).IsChain (Precedes (storedCount s b)))
    (hpass : ∀ j ∈ before, itemVerdict s b j = .pass) (hcount : first = .cueCount ∨ count = storedCount s b) :
    ∃ n count' reads', (i = .cueCount ∨ count' = storedCount s b) ∧
      verifyOne^[n] (inPass s b stale count first [] reads) = inPass s b stale count' i [] reads' := by
  induction before generalizing first count reads with
  | nil =>
    obtain rfl : i = first := by simpa using hfirst
    exact ⟨0, count, reads, hcount, rfl⟩
  | cons j before ih =>
    obtain rfl : j = first := by simpa using hfirst
    obtain ⟨n, u, reads', -, hend⟩ := item_passes (stale := stale) (reads := reads) hcount
    rw [List.cons_append, List.isChain_cons] at hchain
    obtain ⟨hhead, hrest⟩ := hchain
    obtain ⟨next, hnext⟩ : ∃ next, (before ++ [i]).head? = some next := by
      cases before <;> exact ⟨_, rfl⟩
    obtain ⟨m, count', reads'', hc, hreach⟩ := ih (first := next) (count := storedCount s b) (reads := reads') hnext hrest
      (fun k hk => hpass k (by simp [hk])) (.inr rfl)
    refine ⟨m + n, count', reads'', hc, ?_⟩
    rw [Function.iterate_add_apply, hend, hpass j (by simp), ← hreach]
    simp only [itemEnd, (hhead next hnext).1]

/-- The structure pass of a VERIFY ends as the examination of its bank does. -/
theorem pass_ends (s : State) (b : Bank) (stale : Bool) (reads : Nat) :
    ∃ n u, WithinPass s b stale u ∧
      (examine s b = .pass →
        verifyOne^[n] (inPass s b stale 0 .cueCount [] reads) = endVerify u b stale .pass 0) ∧
      (examine s b = .fail → ∃ off, Fails (bankWord s b) (storedCount s b) off ∧
        (∀ o < off, ¬ Fails (bankWord s b) (storedCount s b) o) ∧
        verifyOne^[n] (inPass s b stale 0 .cueCount [] reads) = endVerify u b stale .structFail (bankBase b + off)) ∧
      ∀ off, examine s b = .fault off →
        verifyOne^[n] (inPass s b stale 0 .cueCount [] reads) = verifyFault u b stale off := by
  have reach {before rest : List CheckItem} {i : CheckItem} (hitems : items (storedCount s b) = before ++ i :: rest)
      (hbefore : ∀ j ∈ before, itemVerdict s b j = .pass) :
      ∃ n u reads', WithinPass s b stale u ∧ verifyOne^[n] (inPass s b stale 0 .cueCount [] reads) =
        itemEnd s u b stale (storedCount s b) i reads' (itemVerdict s b i) := by
    have hsplit : items (storedCount s b) = (before ++ [i]) ++ rest := by simp [hitems]
    have hchain := hsplit ▸ items_chain (storedCount s b)
    have hfirst : CheckItem.cueCount ∈ (before ++ [i]).head? := by
      cases before <;> simp only [items, List.cons_append, List.nil_append, List.cons.injEq] at hitems <;> simp [hitems.1]
    obtain ⟨n, count', reads', hcount, hreach⟩ :=
      pass_reaches (stale := stale) (count := 0) (reads := reads) hfirst hchain.left_of_append hbefore (.inl rfl)
    obtain ⟨m, u, reads'', hu, hend⟩ := item_passes (stale := stale) (reads := reads') hcount
    exact ⟨m + n, u, reads'', hu, by rw [Function.iterate_add_apply, hreach, hend]⟩
  rcases examine_cases s b with ⟨hpass, hall⟩ | ⟨before, i, rest, hitems, hbefore, hi, hend⟩
  · obtain ⟨before, i, hitems⟩ : ∃ before i, items (storedCount s b) = before ++ [i] :=
      (List.eq_nil_or_concat' _).resolve_left (by simp [items])
    obtain ⟨n, u, reads', hu, hlast⟩ := reach hitems fun j hj => hall j (by simp [hitems, hj])
    rw [hall i (by simp [hitems]), itemEnd, nextItem_last (by simp [hitems])] at hlast
    refine ⟨n, u, hu, fun _ => hlast, fun h => ?_, fun off h => ?_⟩
    · exact Verdict.noConfusion (h.symm.trans hpass)
    · exact Verdict.noConfusion (h.symm.trans hpass)
  · obtain ⟨n, u, reads', hu, hlast⟩ := reach hitems hbefore
    refine ⟨n, u, hu, fun h => absurd (hend.symm.trans h) hi, fun h => ?_, fun off h => ?_⟩
    · have hfail := hend.symm.trans h
      obtain ⟨hfails, hlower⟩ := lowest_fails hitems hbefore hfail
      rw [hfail] at hlast
      exact ⟨itemOff i, hfails, hlower, hlast⟩
    · rw [hend.symm.trans h] at hlast
      exact hlast

end Pass

/-! ## The end of a VERIFY (R160) -/

/-- The result that a VERIFY ends with. -/
def endResult (stale : Bool) (res : OpResult) : OpResult := if stale then .stale else res

/-- The address that a VERIFY ends with. -/
def endAddr (stale : Bool) (addr : Nat) : Nat := if stale then 0 else addr

section End

variable {s u : State} {b : Bank} {stale : Bool}

theorem endVerify_eq (u : State) (b : Bank) (stale : Bool) (res : OpResult) (addr : Nat) : endVerify u b stale res addr =
    offerReport { u with
      slot := .empty, lastVerify := endResult stale res, lastVerifyAddr := endAddr stale addr,
      verified := u.verified.put b (endResult stale res == .pass) }
      (.opDone .verify (endResult stale res) (endAddr stale addr)) := rfl

theorem endVerify_slot (u : State) (b : Bank) (stale : Bool) (res : OpResult) (addr : Nat) :
    (endVerify u b stale res addr).slot = .empty := by simp [endVerify_eq]

/-- A stale VERIFY ends with STALE and no address. -/
theorem endVerify_stale (h : stale = true) (u : State) (b : Bank) (res : OpResult) (addr : Nat) :
    (endVerify u b stale res addr).lastVerify = .stale ∧ (endVerify u b stale res addr).lastVerifyAddr = 0 ∧
      (endVerify u b stale res addr).verified = u.verified.put b false := by
  subst h
  rw [endVerify_eq]
  exact ⟨by simp [endResult], by simp [endAddr], by simp [endResult]; rfl⟩

/-- Otherwise it ends with its result, and PASS alone sets the verified flag. -/
theorem endVerify_fresh (h : stale = false) (u : State) (b : Bank) (res : OpResult) (addr : Nat) :
    (endVerify u b stale res addr).lastVerify = res ∧ (endVerify u b stale res addr).lastVerifyAddr = addr ∧
      (endVerify u b stale res addr).verified = u.verified.put b (res == .pass) := by
  subst h
  rw [endVerify_eq]
  exact ⟨by simp [endResult], by simp [endAddr], by simp [endResult]⟩

theorem endVerify_store (u : State) (b : Bank) (stale : Bool) (res : OpResult) (addr : Nat) :
    (endVerify u b stale res addr).store = u.store := by simp [endVerify_eq]

theorem endVerify_faultList (u : State) (b : Bank) (stale : Bool) (res : OpResult) (addr : Nat) :
    (endVerify u b stale res addr).faultList = u.faultList := by simp [endVerify_eq]

theorem endVerify_faultOverflow (u : State) (b : Bank) (stale : Bool) (res : OpResult) (addr : Nat) :
    (endVerify u b stale res addr).faultOverflow = u.faultOverflow := by simp [endVerify_eq]

/-- What an offer does to the fault list depends on the fault list alone. -/
theorem offerFault_lists_congr (a : Nat) (hl : u.faultList = s.faultList) (ho : u.faultOverflow = s.faultOverflow) :
    (offerFault u a).faultList = (offerFault s a).faultList ∧
      (offerFault u a).faultOverflow = (offerFault s a).faultOverflow := by
  unfold offerFault
  rw [hl]
  split
  · exact ⟨hl, ho⟩
  · split
    · simp [ho]
    · exact ⟨rfl, rfl⟩

/-- One word of a VERIFY's structure pass leaves it running, or ends it with its report. -/
theorem verifyOne_step {count : Nat} {item : CheckItem} {got : List Word} {reads : Nat}
    (hslot : s.slot = .verify b (.tables count item got) stale reads) :
    (∃ item' got' count' reads', verifyOne s = inPass s b stale count' item' got' reads') ∨
    (verifyOne s = endVerify s b stale .pass 0) ∨ (∃ addr, verifyOne s = endVerify s b stale .structFail addr) ∨
    ∃ off, readBank s b off = none ∧ verifyOne s = verifyFault s b stale off := by
  cases hfeed : feed (checkItem count item) got with
  | pass => exact .inl ⟨item, got, count, reads, by simp [verifyOne, hslot, verifyReads, hfeed, inPass_of_slot hslot]⟩
  | fail => exact .inl ⟨item, got, count, reads, by simp [verifyOne, hslot, verifyReads, hfeed, inPass_of_slot hslot]⟩
  | read off next =>
    cases hword : readBank s b off with
    | none => exact .inr (.inr (.inr ⟨off, hword, verifyOne_faulted hslot hfeed hword⟩))
    | some w =>
      rw [verifyOne_word hslot hfeed hword]
      cases hnext : feed (checkItem count item) (got ++ [w]) with
      | read off' next' => exact .inl ⟨_, _, _, _, tablesStep_read hnext⟩
      | fail => exact .inr (.inr (.inl ⟨_, tablesStep_fail hnext⟩))
      | pass =>
        cases hitem : nextItem (countAfter item count w) item with
        | none => exact .inr (.inl (tablesStep_last hnext hitem))
        | some i => exact .inl ⟨_, _, _, _, tablesStep_next hnext hitem⟩

end End

/-- Settles O36: the examination by its items, and the structure pass by the examination. -/
theorem verifyAgreesWithPowerUpCheck : Obligations.VerifyAgreesWithPowerUpCheck := by
  intro s b
  refine ⟨not_fails_of_examine_pass, fun h => ?_, fun off h => readWord_eq_none.mp (examine_fault h).1,
    fun hgood off h => ?_, fun stale reads hslot => ?_, fun count item got stale reads hslot => ?_⟩
  · rcases examine_cases s b with ⟨hpass, -⟩ | ⟨before, i, rest, hitems, hbefore, -, hend⟩
    · exact Verdict.noConfusion (h.symm.trans hpass)
    · exact ⟨itemOff i, (lowest_fails hitems hbefore (hend.symm.trans h)).1⟩
  · obtain ⟨hnone, hexamined⟩ := examine_fault h
    have hbad := readWord_eq_none.mp hnone
    rw [hgood off hexamined] at hbad
    cases hbad
  · obtain ⟨n, u, ⟨c, item, got, r, rfl⟩, hpass, hfail, hfault⟩ := pass_ends s b stale reads
    rw [inPass_of_slot hslot] at hpass hfail hfault
    refine ⟨n, verifyOne^[n] s, rfl, ?_⟩
    cases hend : examine s b with
    | pass =>
      rw [hpass hend]
      exact ⟨endVerify_slot _ _ _ _ _, endVerify_store _ _ _ _ _, fun h => endVerify_stale h _ _ _ _,
        fun _ => ⟨endVerify_faultList _ _ _ _ _, fun h => endVerify_fresh h _ _ _ _⟩, nofun, nofun⟩
    | fail =>
      obtain ⟨off, hfails, hlowest, hlast⟩ := hfail hend
      rw [hlast]
      refine ⟨endVerify_slot _ _ _ _ _, endVerify_store _ _ _ _ _, fun h => endVerify_stale h _ _ _ _, nofun,
        fun _ => ⟨endVerify_faultList _ _ _ _ _, fun h => ?_⟩, nofun⟩
      obtain ⟨hres, haddr, hverified⟩ := endVerify_fresh h (inPass s b stale c item got r) b .structFail (bankBase b + off)
      exact ⟨hres, hverified, off, hfails, hlowest, haddr⟩
    | fault off =>
      obtain ⟨hlist, hoverflow⟩ := offerFault_lists_congr (s := s) (u := inPass s b stale c item got r) (bankBase b + off)
        rfl rfl
      have hverified : (offerFault (inPass s b stale c item got r) (bankBase b + off)).verified = s.verified :=
        offerFault_verified _ _
      rw [hfault off hend, verifyFault]
      refine ⟨endVerify_slot _ _ _ _ _, (endVerify_store _ _ _ _ _).trans (offerFault_store _ _), fun h => ?_, nofun, nofun,
        fun off' hoff' => ?_⟩
      · rw [← hverified]; exact endVerify_stale h _ _ _ _
      · obtain rfl := Verdict.fault.inj hoff'
        refine ⟨(endVerify_faultList _ _ _ _ _).trans hlist, (endVerify_faultOverflow _ _ _ _ _).trans hoverflow,
          fun h => ?_⟩
        rw [← hverified]
        exact endVerify_fresh h _ _ _ _
  · refine ⟨verifyOne s, rfl, ?_⟩
    have stale_end (res : OpResult) (addr : Nat) (h : stale = true) :
        endResult stale res = .stale ∧ endAddr stale addr = 0 := by simp [endResult, endAddr, h]
    have fresh_end (res : OpResult) (addr : Nat) (h : stale = false) :
        endResult stale res = res ∧ endAddr stale addr = addr := by simp [endResult, endAddr, h]
    rcases verifyOne_step hslot with h | h | ⟨addr, h⟩ | ⟨off, hnone, h⟩
    · exact .inl h
    · exact .inr ⟨s, endResult stale .pass, endAddr stale 0, h, stale_end _ _,
        .inl ⟨rfl, fun hs => .inl (fresh_end _ _ hs)⟩⟩
    · exact .inr ⟨s, endResult stale .structFail, endAddr stale addr, h, stale_end _ _,
        .inl ⟨rfl, fun hs => .inr (fresh_end _ addr hs).1⟩⟩
    · refine .inr ⟨offerFault s (bankBase b + off), endResult stale .fault, endAddr stale (bankBase b + off), ?_,
        stale_end _ _, .inr ⟨off, readWord_eq_none.mp hnone, rfl, fresh_end _ _⟩⟩
      rw [h, verifyFault, endVerify_eq, offerFault_verified]

end Sys2Proof.Machine
end

section
/-! The end of the power-up check (R44, R168, R169): the bank it decides for, the shadow and the stack index loaded from it, the
STARTUP report, and the lines. -/

namespace Sys2Proof.Machine

/-! ## A bank that passes the examination -/

section Passed

variable {s : State} {b : Bank}

theorem cueCount_of_pass (h : examine s b = .pass) : readBank s b cueCountOff = some (bankWord s b cueCountOff) := by
  have hitem := itemVerdict_of_examine_pass h (i := .cueCount) (by simp [items])
  cases hread : readBank s b cueCountOff with
  | none => simp [itemVerdict, checkItem, runCheck, hread] at hitem
  | some w => rw [readBank_eq_some hread]

theorem record_mem_items {p count : Nat} (hp : p < count) : .record p ∈ items count := mem_items.mpr hp

/-- The words of the loaded records hold no fault. -/
theorem recordWord_of_pass (h : examine s b = .pass) {p i : Nat} (hp : p < storedCount s b) (hi : i < 12) :
    (recordWord s b p i).bad = false := by
  obtain ⟨-, hread⟩ := itemVerdict_pass (record_mem_items hp) (itemVerdict_of_examine_pass h (record_mem_items hp))
  have hword : readBank s b (recordOff p + i) ≠ none := by
    refine hread _ ?_
    rw [checkItem, checkRecord_eq, reads_readAll]
    exact List.mem_append_left _ (List.mem_map.mpr ⟨i, List.mem_range.mpr hi, rfl⟩)
  rw [recordWord, Nat.add_assoc]
  exact Bool.eq_false_iff.mpr fun hbad => hword (readWord_eq_none.mpr hbad)

theorem readable_of_pass (h : examine s b = .pass) {p : Nat} (hp : p < storedCount s b) : Readable s b p :=
  ⟨recordWord_of_pass h hp (by decide), recordWord_of_pass h hp (by decide)⟩

theorem recordWord_val (s : State) (b : Bank) (p i : Nat) :
    (recordWord s b p i).val.toNat = recAt (bankWord s b) p i := by
  rw [recordWord, Nat.add_assoc]
  rfl

theorem noTwins_of_pass (h : examine s b = .pass) : NoTwins s b (storedCount s b) := by
  have once {p q : Nat} (hq : q < storedCount s b) (hpq : p < q)
      (h0 : (recordWord s b p 0).val = (recordWord s b q 0).val) : (recordWord s b p 1).val ≠ (recordWord s b q 1).val := by
    intro h1
    refine (itemVerdict_pass (record_mem_items hq) (itemVerdict_of_examine_pass h (record_mem_items hq))).1 ?_
    refine .inr (.inr (.inl ⟨p, hpq, ?_, ?_⟩))
    · rw [← recordWord_val, ← recordWord_val, h0]
    · rw [← recordWord_val, ← recordWord_val, h1]
  intro p hp q hq _ _ h0 h1
  rcases Nat.lt_trichotomy p q with hlt | heq | hlt
  · exact absurd h1 (once hq hlt h0)
  · exact heq
  · exact absurd h1.symm (once hp hlt h0.symm)

/-- The build of the index offers no fault where the first `n` records can be read. -/
theorem indexUpTo_frame {n : Nat} (h : ∀ p < n, Readable s b p) :
    indexUpTo s b n = { s with stackIndex := (indexUpTo s b n).stackIndex } := by
  induction n with
  | zero => rfl
  | succ n ih =>
    have hrest := ih fun p hp => h p (by omega)
    rw [indexUpTo_succ, indexRecord_readable ((readable_indexUpTo s b n n).mpr (h n (by omega)))]
    generalize indexUpTo s b n = u at hrest
    rw [hrest]

/-- What the index holds of a bank that passes: each stack's loaded records in rising cue number. -/
def IndexesLoaded (w : Nat → Word) (count st : Nat) (l : List IndexEntry) : Prop :=
  l.Pairwise (fun e f => e.cue < f.cue) ∧
  ∀ e, e ∈ l ↔ e.position < count ∧ recAt w e.position 0 = st ∧ recAt w e.position 1 = e.cue

theorem buildIndex_of_pass (h : examine s b = .pass) :
    buildIndex s b = { s with stackIndex := (buildIndex s b).stackIndex } ∧
    ∀ st, 1 ≤ st → st ≤ 16 →
      IndexesLoaded (bankWord s b) (storedCount s b) st (stackList (buildIndex s b) st) := by
  rw [buildIndex_read (cueCount_of_pass h)]
  refine ⟨?_, fun st hlo hhi => ?_⟩
  · exact indexUpTo_frame (s := { s with stackIndex := Vector.replicate 16 [] }) (b := b) (n := storedCount s b)
      fun p hp => readable_of_pass h hp
  · obtain ⟨hrising, hmem⟩ := indexes_indexUpTo (s := { s with stackIndex := Vector.replicate 16 [] }) (b := b) rfl
      (show NoTwins s b (storedCount s b) from noTwins_of_pass h) ⟨hlo, hhi⟩
    refine ⟨hrising, fun e => (hmem e).trans ?_⟩
    rw [← recordWord_val, ← recordWord_val]
    exact ⟨fun ⟨hp, _, hst, hcue⟩ => ⟨hp, hst, hcue⟩, fun ⟨hp, hst, hcue⟩ => ⟨hp, readable_of_pass h hp, hst, hcue⟩⟩

end Passed

/-! ## The outcome of the check (R168) -/

/-- A state with the fault offered that ends the examination of bank `b` of `s`, if one does. -/
def faultMet (s u : State) (b : Bank) : State :=
  match examine s b with
  | .fault off => offerFault u (bankBase b + off)
  | .pass | .fail => u

theorem examine_congr {s u : State} {b : Bank} (h : readBank u b = readBank s b) : examine u b = examine s b := by
  simp only [examine, h]

theorem readBank_of_store {s u : State} (h : u.store = s.store) (b : Bank) : readBank u b = readBank s b := by
  funext off
  rw [readBank, readBank, readWord, readWord, stored_congr h]

theorem readBank_select (u : State) (v : Word) (b : Bank) : readBank (rewrite u selectionAddr v) b = readBank u b := by
  funext off
  exact readWord_rewrite_of_ne u v (bank_ne_selection b off)

@[simp] theorem faultMet_store (s u : State) (b : Bank) : (faultMet s u b).store = u.store := by
  unfold faultMet
  split <;> simp

theorem examineBank_eq {s u : State} (h : u.store = s.store) (b : Bank) :
    examineBank u b = (faultMet s u b, decide (examine s b = .pass)) := by
  have hexamine := examine_congr (readBank_of_store h b)
  unfold examineBank faultMet
  rw [hexamine]
  cases examine s b <;> rfl

section Decide

variable {s : State}

/-- The candidate bank as decided for, before its load. -/
def takenNormal (s : State) : State := { s with safeMode := false }

/-- The other bank as decided for, before its load; the selection is rewritten. -/
def takenFallback (s : State) : State :=
  { rewrite (faultMet s s s.active) selectionAddr (wordOf (bankCode (otherBank s.active))) with
    active := otherBank s.active, safeMode := false }

theorem decideBank_normal (h : examine s s.active = .pass) : decideBank s = (takenNormal s, .normal) := by
  have hmet : faultMet s s s.active = s := by simp only [faultMet, h]
  have hfirst := examineBank_eq (s := s) rfl s.active
  rw [hmet] at hfirst
  simp [decideBank, takenNormal, hfirst, h]

theorem decideBank_fallback (h : examine s s.active ≠ .pass) (h' : examine s (otherBank s.active) = .pass) :
    decideBank s = (takenFallback s, .fallback) := by
  have hmet (u : State) : faultMet s u (otherBank s.active) = u := by simp only [faultMet, h']
  have hfirst := examineBank_eq (s := s) rfl s.active
  have hsecond := examineBank_eq (faultMet_store s s s.active) (otherBank s.active)
  rw [hmet] at hsecond
  simp [decideBank, takenFallback, hfirst, hsecond, h, h']

theorem decideBank_safe (h : examine s s.active ≠ .pass) (h' : examine s (otherBank s.active) ≠ .pass) :
    decideBank s =
      ({ faultMet s (faultMet s s s.active) (otherBank s.active) with safeMode := true }, .safe) := by
  have hfirst := examineBank_eq (s := s) rfl s.active
  have hsecond := examineBank_eq (faultMet_store s s s.active) (otherBank s.active)
  simp [decideBank, hfirst, hsecond, h, h']

end Decide

/-! ## The bank loaded (R44, R149, R169) -/

/-- A state less what the decision and the load of a bank change. -/
def bankView (s : State) : State :=
  { s with safeMode := false, active := .b0, store := [], shadow := [], patchHold := false,
           stackIndex := Vector.replicate 16 [], faultList := [], faultOverflow := false, reports := [], dropMark := false }

/-- Before the check has ended, an offer to the fault list starts no frame. -/
theorem bankView_offerFault {u : State} (h : u.phase ≠ .running) (a : Nat) : bankView (offerFault u a) = bankView u := by
  rcases offerFault_cases u a with ⟨-, h'⟩ | ⟨-, -, h'⟩ | ⟨-, -, h'⟩ <;> rw [h']
  · rw [offerReport_of_busy (s := { u with faultList := u.faultList ++ [a] }) _ (.inl h)]
    unfold enqueueReport
    split <;> rfl
  · rfl

theorem bankView_faultMet {s u : State} (h : u.phase ≠ .running) (b : Bank) : bankView (faultMet s u b) = bankView u := by
  unfold faultMet
  split
  · exact bankView_offerFault h _
  · rfl
  · rfl

/-- What the check leaves of the bank it has decided for, before its report: `u` holds the reports that its faults raise. -/
structure Loaded (s u c : State) : Prop where
  view : bankView c = bankView s
  reports : c.reports = u.reports
  dropMark : c.dropMark = u.dropMark
  store : ∀ a, a ≠ selectionAddr → stored c a = stored s a
  patchHold : c.patchHold = false
  shadow : c.safeMode = false → ∀ off, 3 ≤ off → off < 2627 → shadowWord c off = (liveStored c off).val
  index : c.safeMode = false → ∀ st, 1 ≤ st → st ≤ 16 →
    IndexesLoaded (bankWord c c.active) (storedCount c c.active) st (stackList c st)

section Fields

variable {s u c : State}

theorem Loaded.frame {t : State} (h : Loaded s u c)
    (ht : t = { c with phase := .running, reports := t.reports, dropMark := t.dropMark, tx := t.tx,
                       replies := t.replies, lines := t.lines }) :
    t = { s with phase := .running, safeMode := t.safeMode, active := t.active, store := t.store, shadow := t.shadow,
                 patchHold := false, stackIndex := t.stackIndex, faultList := t.faultList,
                 faultOverflow := t.faultOverflow, reports := t.reports, dropMark := t.dropMark, tx := t.tx,
                 replies := t.replies, lines := t.lines } := by
  calc t = { bankView c with
        phase := .running, safeMode := t.safeMode, active := t.active, store := t.store, shadow := t.shadow,
        patchHold := false, stackIndex := t.stackIndex, faultList := t.faultList, faultOverflow := t.faultOverflow,
        reports := t.reports, dropMark := t.dropMark, tx := t.tx, replies := t.replies, lines := t.lines } := by
        rw [ht, h.patchHold]
        rfl
    _ = _ := by rw [h.view]; rfl

theorem Loaded.phase (h : Loaded s u c) : c.phase = s.phase := (congrArg State.phase h.view :)
theorem Loaded.arb (h : Loaded s u c) : c.arb = s.arb := (congrArg State.arb h.view :)
theorem Loaded.working (h : Loaded s u c) : c.working = s.working := (congrArg State.working h.view :)
theorem Loaded.replies (h : Loaded s u c) : c.replies = s.replies := (congrArg State.replies h.view :)
theorem Loaded.tx (h : Loaded s u c) : c.tx = s.tx := (congrArg State.tx h.view :)
theorem Loaded.lines (h : Loaded s u c) : c.lines = s.lines := (congrArg State.lines h.view :)

end Fields

/-- The load of the active bank, which passes the examination. -/
def loadActive (u : State) : State := buildIndex (loadShadow { u with patchHold := false }) u.active

theorem loadActive_of_pass {u : State} (h : examine u u.active = .pass) :
    loadActive u = { loadShadow { u with patchHold := false } with stackIndex := (loadActive u).stackIndex } ∧
    ∀ st, 1 ≤ st → st ≤ 16 →
      IndexesLoaded (bankWord u u.active) (storedCount u u.active) st (stackList (loadActive u) st) := by
  have hpass : examine (loadShadow { u with patchHold := false }) u.active = .pass := h
  exact buildIndex_of_pass hpass

theorem loaded_active {s m u : State} (hview : bankView u = bankView s) (hreports : u.reports = m.reports)
    (hmark : u.dropMark = m.dropMark) (hstore : ∀ a, a ≠ selectionAddr → stored u a = stored s a)
    (hpass : examine u u.active = .pass) : Loaded s m (loadActive u) := by
  obtain ⟨hframe, hindex⟩ := loadActive_of_pass hpass
  have hstored : stored (loadActive u) = stored u := stored_congr (by rw [hframe]; rfl)
  have hactive : (loadActive u).active = u.active := by rw [hframe]; rfl
  have hwords : bankWord (loadActive u) (loadActive u).active = bankWord u u.active := by
    funext off
    rw [bankWord, bankWord, hstored, hactive]
  refine ⟨?_, ?_, ?_, fun a ha => by rw [hstored, hstore a ha], ?_, fun _ off hlo hhi => ?_, fun _ st hlo hhi => ?_⟩
  · rw [hframe]; exact hview
  · rw [hframe]; exact hreports
  · rw [hframe]; exact hmark
  · rw [hframe]; rfl
  · have hlive : liveStored (loadActive u) off = liveStored u off := by rw [liveStored, liveStored, hstored, hactive]
    rw [hlive, show shadowWord (loadActive u) off = shadowWord (loadShadow { u with patchHold := false }) off by
      rw [shadowWord, hframe]; rfl]
    exact shadowWord_loadShadow _ ⟨hlo, hhi⟩
  · rw [storedCount, hwords]
    exact hindex st hlo hhi

theorem loadActive_kept {u : State} (h : examine u u.active = .pass) :
    (loadActive u).safeMode = u.safeMode ∧ (loadActive u).active = u.active ∧ (loadActive u).store = u.store := by
  rw [(loadActive_of_pass h).1]
  exact ⟨rfl, rfl, rfl⟩

section Outcomes

variable {s : State}

/-- Safe mode as decided for, with the stack index empty. -/
def takenSafe (s : State) : State :=
  { faultMet s (faultMet s s s.active) (otherBank s.active) with
    safeMode := true, patchHold := false, stackIndex := Vector.replicate 16 [] }

theorem loadBank_normal (h : examine s s.active = .pass) :
    loadBank (decideBank s).1 (decideBank s).2 = loadActive (takenNormal s) ∧ (decideBank s).2 = .normal := by
  rw [decideBank_normal h]
  exact ⟨rfl, rfl⟩

theorem loadBank_fallback (h : examine s s.active ≠ .pass) (h' : examine s (otherBank s.active) = .pass) :
    loadBank (decideBank s).1 (decideBank s).2 = loadActive (takenFallback s) ∧ (decideBank s).2 = .fallback := by
  rw [decideBank_fallback h h']
  exact ⟨rfl, rfl⟩

theorem loadBank_safe (h : examine s s.active ≠ .pass) (h' : examine s (otherBank s.active) ≠ .pass) :
    loadBank (decideBank s).1 (decideBank s).2 = takenSafe s ∧ (decideBank s).2 = .safe := by
  rw [decideBank_safe h h']
  exact ⟨rfl, rfl⟩

/-- Neither the reports of the faults nor the selection's rewrite changes what the examination of a bank reads. -/
theorem examine_takenFallback (b : Bank) : examine (takenFallback s) b = examine s b := by
  refine examine_congr ?_
  calc readBank (takenFallback s) b = readBank (rewrite (faultMet s s s.active) selectionAddr _) b := rfl
    _ = readBank (faultMet s s s.active) b := readBank_select _ _ b
    _ = readBank s b := readBank_of_store (faultMet_store ..) b

theorem loaded_normal (h : examine s s.active = .pass) : Loaded s s (loadActive (takenNormal s)) :=
  loaded_active (u := takenNormal s) rfl rfl rfl (fun _ _ => rfl) h

theorem loaded_fallback (hp : s.phase ≠ .running) (h : examine s (otherBank s.active) = .pass) :
    Loaded s (faultMet s s s.active) (loadActive (takenFallback s)) := by
  refine loaded_active (u := takenFallback s) ?_ rfl rfl (fun a ha => ?_) ((examine_takenFallback _).trans h)
  · calc bankView (takenFallback s) = bankView (faultMet s s s.active) := rfl
      _ = bankView s := bankView_faultMet hp _
  · calc stored (takenFallback s) a = stored (rewrite (faultMet s s s.active) selectionAddr _) a := rfl
      _ = stored (faultMet s s s.active) a := stored_rewrite_of_ne _ _ ha
      _ = stored s a := by rw [stored_congr (faultMet_store ..)]

theorem loaded_safe (hp : s.phase ≠ .running) :
    Loaded s (faultMet s (faultMet s s s.active) (otherBank s.active)) (takenSafe s) := by
  have hphase : (faultMet s s s.active).phase ≠ .running := by
    rw [show (faultMet s s s.active).phase = s.phase from (congrArg State.phase (bankView_faultMet hp s.active) :)]
    exact hp
  refine ⟨?_, rfl, rfl, fun a _ => ?_, rfl, nofun, nofun⟩
  · calc bankView (takenSafe s) = bankView (faultMet s (faultMet s s s.active) (otherBank s.active)) := rfl
      _ = bankView (faultMet s s s.active) := bankView_faultMet hphase _
      _ = bankView s := bankView_faultMet hp _
  · rw [stored_congr (t := takenSafe s) (s := s) (by simp [takenSafe])]

end Outcomes

/-! ## The report and the lines (R134, R169) -/

/-- The end of the check once the bank is loaded. -/
def finishCheck (c : State) (res : StartResult) : State :=
  startIfIdle (startIfIdle { allLines.foldl startLine (offerReport c (.startup res)) with phase := .running } .a) .b

theorem endCheck_eq {s : State} (hp : s.phase = .checking) :
    endCheck s = finishCheck (loadBank (decideBank s).1 (decideBank s).2) (decideBank s).2 := by
  rw [endCheck, if_neg (not_not.mpr hp)]
  rfl

theorem startLines_frame (l : List LineNo) (c : State) :
    l.foldl startLine c = { c with lines := (l.foldl startLine c).lines } := by
  induction l generalizing c with
  | nil => rfl
  | cons k l ih =>
    rw [List.foldl_cons, ih (startLine c k)]
    have hone : startLine c k = { c with lines := (startLine c k).lines } := by
      unfold startLine
      split <;> rfl
    rw [hone]

theorem finishCheck_frame (c : State) (res : StartResult) : finishCheck c res =
    { c with phase := .running, reports := (finishCheck c res).reports, dropMark := (finishCheck c res).dropMark,
             tx := (finishCheck c res).tx, replies := (finishCheck c res).replies,
             lines := (finishCheck c res).lines } := by
  unfold finishCheck
  rw [startIfIdle_frame, startIfIdle_frame _ .a, startLines_frame, offerReport_frame]

section Kept

variable (c : State) (res : StartResult)

theorem finishCheck_phase : (finishCheck c res).phase = .running := (congrArg State.phase (finishCheck_frame c res) :)

@[simp] theorem finishCheck_safeMode : (finishCheck c res).safeMode = c.safeMode :=
  (congrArg State.safeMode (finishCheck_frame c res) :)

@[simp] theorem finishCheck_active : (finishCheck c res).active = c.active :=
  (congrArg State.active (finishCheck_frame c res) :)

@[simp] theorem finishCheck_store : (finishCheck c res).store = c.store :=
  (congrArg State.store (finishCheck_frame c res) :)

@[simp] theorem finishCheck_shadow : (finishCheck c res).shadow = c.shadow :=
  (congrArg State.shadow (finishCheck_frame c res) :)

@[simp] theorem finishCheck_stackIndex : (finishCheck c res).stackIndex = c.stackIndex :=
  (congrArg State.stackIndex (finishCheck_frame c res) :)

end Kept

/-- A line as the end of the check leaves it. -/
def lineStarted (w : LineSettings) (l : Line) : Line :=
  if w.enable ∧ l.tx = .silent then { l with tx := .waiting, timer := 0 } else l

theorem lineAt_startLine (c : State) (j k : LineNo) : lineAt (startLine c j) k =
    if j = k then lineStarted (lineSettings c k) (lineAt c k) else lineAt c k := by
  unfold startLine lineStarted
  by_cases hjk : j = k
  · subst hjk
    rw [if_pos rfl]
    split
    · exact lineAt_setLine_self c j _
    · rfl
  · rw [if_neg hjk]
    split
    · exact lineAt_setLine_of_ne c _ (Ne.symm hjk)
    · rfl

theorem lineStarted_twice (w : LineSettings) (l : Line) : lineStarted w (lineStarted w l) = lineStarted w l := by
  unfold lineStarted
  by_cases h : w.enable ∧ l.tx = .silent
  · simp [h]
  · simp only [if_neg h]

theorem lineAt_startLines (l : List LineNo) (c : State) (k : LineNo) : lineAt (l.foldl startLine c) k =
    if k ∈ l then lineStarted (lineSettings c k) (lineAt c k) else lineAt c k := by
  induction l generalizing c with
  | nil => rfl
  | cons j l ih =>
    have hsettings : lineSettings (startLine c j) k = lineSettings c k := by
      have hone := startLines_frame [j] c
      rw [show startLine c j = [j].foldl startLine c from rfl, hone]
      rfl
    rw [List.foldl_cons, ih, hsettings, lineAt_startLine]
    by_cases hjk : j = k
    · subst hjk
      simp [lineStarted_twice]
    · simp [hjk, Ne.symm hjk]

theorem lineAt_finishCheck (c : State) (res : StartResult) (k : LineNo) :
    lineAt (finishCheck c res) k = lineStarted (lineSettings c k) (lineAt c k) := by
  have hlines : lineAt (finishCheck c res) k = lineAt (allLines.foldl startLine (offerReport c (.startup res))) k := by
    rw [lineAt, lineAt, finishCheck, startIfIdle_lines, startIfIdle_lines]
  have hsettings : lineSettings (offerReport c (.startup res)) k = lineSettings c k := by
    rw [lineSettings, lineSettings, offerReport_working]
  have hline : lineAt (offerReport c (.startup res)) k = lineAt c k := by rw [lineAt, lineAt, offerReport_lines]
  have hmem : k ∈ allLines := List.mem_finRange k
  rw [hlines, lineAt_startLines, if_pos hmem, hsettings, hline]

/-- The standby's line, without a reply, starts nothing. -/
theorem startIfIdle_standby {s : State} {x : Link} (hreplies : s.replies.get x = []) (howner : s.arb.owner ≠ x) :
    startIfIdle s x = s := by
  unfold startIfIdle
  split
  · rename_i hidle
    have hstart : startFrame s x = { s with tx := s.tx.put x none } := by simp [startFrame, hreplies, howner]
    rw [hstart, ← hidle.2, PerLink.put_get_self]
  · rfl

/-- The frame starts of both lines once the check has ended: the owner's line takes the oldest report. -/
theorem startIfIdle_both {v : State} {q : Report} {rest : List Report} (hp : v.phase = .running)
    (htx : v.tx = ⟨none, none⟩) (hreplies : v.replies = ⟨[], []⟩) (hreports : v.reports = q :: rest) :
    startIfIdle (startIfIdle v .a) .b = { v with
      reports := rest, tx := v.tx.put v.arb.owner (some (linkFrame 0x40 (reportPayload v.working.unit q))) } := by
  have hidle (x : Link) : v.tx.get x = none := by rw [htx]; cases x <;> rfl
  have hnone (x : Link) : v.replies.get x = [] := by rw [hreplies]; cases x <;> rfl
  cases howner : v.arb.owner with
  | a =>
    rw [startIfIdle_of_report hp (hidle .a) (hnone .a) howner hreports]
    exact startIfIdle_standby (hnone .b) (by simp [howner])
  | b =>
    rw [startIfIdle_standby (hnone .a) (by simp [howner])]
    exact startIfIdle_of_report hp (hidle .b) (hnone .b) howner hreports

/-- The STARTUP report as `started` of PowerUpCheckDecides says it: after the reports of `u`, the oldest of them begun. -/
def StartsUp (s u t : State) (res : StartResult) : Prop :=
  s.tx = ⟨none, none⟩ → s.replies = ⟨[], []⟩ → u.reports.length < 32 →
    ∃ r rest, u.reports ++ [⟨.startup res, u.dropMark⟩] = r :: rest ∧ t.reports = rest ∧ t.dropMark = false ∧
      t.tx = s.tx.put s.arb.owner (some (linkFrame 0x40 (reportPayload s.working.unit r))) ∧ t.replies = s.replies

theorem startsUp_finishCheck {s u c : State} (res : StartResult) (hp : s.phase = .checking) (h : Loaded s u c) :
    StartsUp s u (finishCheck c res) res := by
  intro htx hreplies hroom
  have hphase : c.phase ≠ .running := by simp [h.phase, hp]
  obtain ⟨r, rest, hr⟩ : ∃ r rest, u.reports ++ [(⟨.startup res, u.dropMark⟩ : Report)] = r :: rest :=
    List.exists_cons_of_ne_nil (by simp)
  refine ⟨r, rest, hr, ?_⟩
  have hoffer : offerReport c (.startup res) = { c with reports := r :: rest, dropMark := false } := by
    rw [offerReport_of_busy _ (.inl hphase), enqueueReport_of_room _ (by rwa [h.reports]), h.reports,
      h.dropMark, hr]
  have hlines := startLines_frame allLines { c with reports := r :: rest, dropMark := false }
  have hstart := startIfIdle_both (v :=
    { allLines.foldl startLine { c with reports := r :: rest, dropMark := false } with phase := .running })
    (q := r) (rest := rest) rfl (by rw [hlines]; exact h.tx.trans htx) (by rw [hlines]; exact h.replies.trans hreplies)
    (by rw [hlines])
  rw [finishCheck, hoffer, hstart, hlines]
  refine ⟨rfl, rfl, ?_, h.replies⟩
  rw [← h.tx, ← h.arb, ← h.working]

/-! ## The obligation -/

/-- What PowerUpCheckDecides says whatever the outcome. -/
theorem finishCheck_loaded {s u c : State} (res : StartResult) (h : Loaded s u c) :
    let t := finishCheck c res
    let live (off : Nat) : Word := (stored t (bankBase t.active + off)).val
    (∀ a, a ≠ selectionAddr → stored t a = stored s a) ∧ t.patchHold = false ∧
    (t.safeMode = false → ∀ off, 3 ≤ off → off < 2627 → shadowWord t off = (liveStored t off).val) ∧
    (t.safeMode = false → ∀ st, 1 ≤ st → st ≤ 16 →
      (stackList t st).Pairwise (fun e f => e.cue < f.cue) ∧
      ∀ e, e ∈ stackList t st ↔ e.position < (live 2).toNat ∧ (live (2627 + 12 * e.position)).toNat = st ∧
        (live (2628 + 12 * e.position)).toNat = e.cue) ∧
    (∀ k, (lineAt s k).tx = .silent →
      (lineAt t k).tx = (if (lineSettings s k).enable then .waiting else .silent) ∧
      ((lineSettings s k).enable = true → (lineAt t k).timer = 0)) ∧
    t = { s with phase := .running, safeMode := t.safeMode, active := t.active, store := t.store, shadow := t.shadow,
                 patchHold := false, stackIndex := t.stackIndex, faultList := t.faultList,
                 faultOverflow := t.faultOverflow, reports := t.reports, dropMark := t.dropMark, tx := t.tx,
                 replies := t.replies, lines := t.lines } := by
  intro t live
  have hframe := finishCheck_frame c res
  have hstored : stored t = stored c := stored_congr (finishCheck_store c res)
  have hactive : t.active = c.active := finishCheck_active c res
  have hsafe : t.safeMode = c.safeMode := finishCheck_safeMode c res
  have hshadow : t.shadow = c.shadow := finishCheck_shadow c res
  refine ⟨fun a ha => by rw [hstored, h.store a ha], (congrArg State.patchHold hframe :).trans h.patchHold,
    fun hs off hlo hhi => ?_, fun hs st hlo hhi => ?_, fun k hsilent => ?_, ?_⟩
  · have := h.shadow (hsafe ▸ hs) off hlo hhi
    rwa [shadowWord, liveStored, hshadow, hstored, hactive]
  · obtain ⟨hrising, hmem⟩ := h.index (hsafe ▸ hs) st hlo hhi
    rw [stackList_congr (finishCheck_stackIndex c res)]
    have hlive : live = bankWord c c.active := by
      funext off
      simp only [live, hstored, hactive, bankWord]
    refine ⟨hrising, fun e => (hmem e).trans ?_⟩
    rw [hlive, show 2628 + 12 * e.position = recordOff e.position + 1 by rw [recordOff]; omega]
    rfl
  · have hlines : lineAt c k = lineAt s k := by rw [lineAt, lineAt, h.lines]
    have hsettings : lineSettings c k = lineSettings s k := by
      rw [lineSettings, lineSettings, h.working]
    rw [lineAt_finishCheck, hlines, hsettings, lineStarted]
    cases (lineSettings s k).enable <;> simp [hsilent]
  · exact h.frame hframe

/-- Settles O5, by whether the candidate bank and the other bank pass the examination. -/
theorem powerUpCheckDecides : Obligations.PowerUpCheckDecides := by
  intro s hp met
  have hmet (u : State) (b : Bank) : met u b = faultMet s u b := rfl
  simp only [hmet]
  refine ⟨endCheck s, rfl, ?_⟩
  rw [endCheck_eq hp]
  have hrunning : s.phase ≠ .running := by simp [hp]
  by_cases hcandidate : examine s s.active = .pass
  · obtain ⟨hload, hres⟩ := loadBank_normal hcandidate
    obtain ⟨hsafe, hactive, hstore⟩ := loadActive_kept (u := takenNormal s) hcandidate
    have h := loaded_normal hcandidate
    rw [hload, hres]
    refine ⟨finishCheck_phase _ _, fun _ => ⟨?_, ?_, ?_, startsUp_finishCheck .normal hp h⟩,
      fun hfail => absurd hcandidate hfail, fun hfail => absurd hcandidate hfail, finishCheck_loaded .normal h⟩
    · rw [finishCheck_safeMode, hsafe]; rfl
    · rw [finishCheck_active, hactive]; rfl
    · rw [stored_congr ((finishCheck_store _ _).trans hstore)]; rfl
  · by_cases hother : examine s (otherBank s.active) = .pass
    · obtain ⟨hload, hres⟩ := loadBank_fallback hcandidate hother
      obtain ⟨hsafe, hactive, hstore⟩ := loadActive_kept (u := takenFallback s) ((examine_takenFallback _).trans hother)
      have h := loaded_fallback hrunning hother
      rw [hload, hres]
      refine ⟨finishCheck_phase _ _, fun hpass => absurd hpass hcandidate,
        fun _ _ => ⟨?_, ?_, ?_, startsUp_finishCheck .fallback hp h⟩, fun _ hfail => absurd hother hfail,
        finishCheck_loaded .fallback h⟩
      · rw [finishCheck_safeMode, hsafe]; rfl
      · rw [finishCheck_active, hactive]; rfl
      · rw [stored_congr ((finishCheck_store _ _).trans hstore)]
        exact stored_rewrite_self ..
    · obtain ⟨hload, hres⟩ := loadBank_safe hcandidate hother
      have h := loaded_safe hrunning
      rw [hload, hres]
      refine ⟨finishCheck_phase _ _, fun hpass => absurd hpass hcandidate, fun _ hpass => absurd hpass hother,
        fun _ _ => ⟨?_, ?_, fun st => ?_, startsUp_finishCheck .safe hp h⟩, finishCheck_loaded .safe h⟩
      · rw [finishCheck_safeMode]; rfl
      · rw [stored_congr (t := finishCheck (takenSafe s) .safe) (s := s) (by simp [takenSafe])]
      · rw [stackList_congr (finishCheck_stackIndex _ _)]
        exact stackList_of_empty rfl st

end Sys2Proof.Machine
end

section
/-! The console contribution through the changes of the console source (R25 to R28, R31 to R36, R89): what a link contributes to
it, what a handover trigger leaves of it, and the TAKE, the loss, the change into LIVE and the WRITE that make one. -/

namespace Sys2Proof.Machine

/-! ## The contribution and what it is formed from (R28, R29) -/

/-- The console contribution of each channel stands from one state to another. -/
def Stands (s t : State) : Prop := ∀ ch, 1 ≤ ch → ch ≤ 512 → contribution t ch = contribution s ch

theorem Stands.refl (s : State) : Stands s s := fun _ _ _ => rfl

theorem Stands.trans {s t u : State} (h : Stands s t) (h' : Stands t u) : Stands s u :=
  fun ch hlo hhi => (h' ch hlo hhi).trans (h ch hlo hhi)

/-- Whether the mode target counts a link's levels (R28). -/
def heard (s : State) (x : Link) : Bool :=
  match s.working.sourceMode with
  | .isolated => false
  | .sole | .tracking => s.arb.owner == x
  | .merge => isLive s x

/-- The mode target is the highest level of the links that it counts. -/
theorem modeTarget_eq (s : State) (ch : Nat) : modeTarget s ch =
    widen (max (if heard s .a then bufferLevel s .a ch else 0) (if heard s .b then bufferLevel s .b ch else 0)) := by
  unfold modeTarget heard
  cases s.working.sourceMode
  case isolated => rfl
  case merge => rfl
  all_goals cases s.arb.owner <;> simp

/-- The mode target depends on the links that it counts, and on their levels. -/
theorem modeTarget_congr {s t : State} {ch : Nat} (hheard : ∀ x, heard t x = heard s x)
    (hbuffer : ∀ x, heard s x = true → bufferLevel t x ch = bufferLevel s x ch) : modeTarget t ch = modeTarget s ch := by
  have level (x : Link) : (if heard t x then bufferLevel t x ch else 0) = if heard s x then bufferLevel s x ch else 0 := by
    rw [hheard]
    split
    · exact hbuffer x ‹_›
    · rfl
  rw [modeTarget_eq, modeTarget_eq, level, level]

theorem heard_congr {s t : State} (hmode : t.working.sourceMode = s.working.sourceMode) (howner : t.arb.owner = s.arb.owner)
    (hlive : s.working.sourceMode = .merge → ∀ x, isLive t x = isLive s x) (x : Link) : heard t x = heard s x := by
  unfold heard
  rw [hmode, howner]
  split
  · rfl
  · rfl
  · rfl
  · exact hlive ‹_› x

/-- What the contribution of a source that waits for a console is formed from (R33, R34). -/
structure SourceKept (s t : State) : Prop where
  source       : t.arb.source = s.arb.source
  snapshot     : t.arb.snapshot = s.arb.snapshot
  elapsed      : t.arb.elapsed = s.arb.elapsed
  lossFadeTime : t.working.lossFadeTime = s.working.lossFadeTime

theorem SourceKept.trans {s t u : State} (h : SourceKept s t) (h' : SourceKept t u) : SourceKept s u :=
  ⟨h'.source.trans h.source, h'.snapshot.trans h.snapshot, h'.elapsed.trans h.elapsed, h'.lossFadeTime.trans h.lossFadeTime⟩

theorem sourceKept_of_eq {s t : State} (ha : t.arb = s.arb) (hw : t.working = s.working) : SourceKept s t := by
  constructor <;> simp only [ha, hw]

theorem sourceKept_changeOwner (s : State) (x : Link) (c : Cause) : SourceKept s (changeOwner s x c) := by
  constructor <;> simp only [changeOwner_arb, changeOwner_working]

theorem sourceKept_ownerMoved (s : State) (x : Link) (c : Cause) : SourceKept s (ownerMoved s x c) := by
  unfold ownerMoved
  split
  · exact sourceKept_of_eq rfl rfl
  · exact sourceKept_changeOwner s x c

theorem sourceKept_returnTo (s : State) (x : Link) : SourceKept s (returnTo s x) := by
  unfold returnTo
  split
  · exact sourceKept_of_eq (by simp) (by simp)
  · exact sourceKept_changeOwner s x .ret

/-- The contribution stands where its source is kept, and where in NORMAL and HANDOVER the mode target and the handover time
are too. -/
theorem contribution_of_kept {s t : State} {ch : Nat} (h : SourceKept s t)
    (hcounts : s.arb.source = .normal ∨ s.arb.source = .handover →
      t.working.handoverTime = s.working.handoverTime ∧ modeTarget t ch = modeTarget s ch) :
    contribution t ch = contribution s ch := by
  have hsnap : snapshotLevel t ch = snapshotLevel s ch := by rw [snapshotLevel, h.snapshot, ← snapshotLevel]
  unfold contribution
  rw [h.source, h.elapsed, h.lossFadeTime, hsnap]
  split
  case h_1 hsrc => exact (hcounts (.inl hsrc)).2
  case h_2 hsrc =>
    obtain ⟨htime, htarget⟩ := hcounts (.inr hsrc)
    rw [htime, htarget]
  all_goals rfl

/-- What the contribution is formed from, as it was. -/
structure SameConsole (s t : State) : Prop where
  arb     : t.arb = s.arb
  working : t.working = s.working
  live    : ∀ x, isLive t x = isLive s x
  buffer  : ∀ x, (linkOf t x).buffer = (linkOf s x).buffer

theorem SameConsole.stands {s t : State} (h : SameConsole s t) : Stands s t := fun ch _ _ =>
  contribution_congr (by rw [h.arb]) (by rw [h.arb]) (by rw [h.arb]) (by rw [h.arb]) h.working h.buffer h.live ch

theorem sameConsole_of_coreView {s t : State} (h : coreView t = coreView s) : SameConsole s t := by
  have hc := consoleView_of_coreView h
  obtain ⟨-, -, ha, hw, -⟩ := coreView_eq_iff.mp h
  exact ⟨ha, hw, isLive_of_consoleView hc, fun x => by rw [linkOf_of_consoleView hc]⟩

theorem buffer_setLink {s : State} {x : Link} {l : LinkRx} (h : l.buffer = (linkOf s x).buffer) (y : Link) :
    (linkOf (setLink s x l) y).buffer = (linkOf s y).buffer := by
  by_cases hy : y = x
  · subst hy; rw [linkOf_setLink_self, h]
  · rw [linkOf_setLink_of_ne s l hy]

theorem sameConsole_setLink {s : State} {x : Link} {l : LinkRx} (hstate : l.state = .live ↔ (linkOf s x).state = .live)
    (hbuffer : l.buffer = (linkOf s x).buffer) : SameConsole s (setLink s x l) :=
  ⟨rfl, rfl, isLive_setLink_of_state hstate, buffer_setLink hbuffer⟩

/-! ## The trigger and the entry into HOLD (R31, R33) -/

/-- A handover begins at the snapshot. -/
theorem levelToward_at_start (start target : Nat) {d : Nat} (hd : d ≠ 0) :
    levelToward start target (liveFraction 0 d) = start := by
  simp [levelToward, liveFraction, hd]

theorem Entered.stands_handover {s t : State} {a : Arbiter} (h : Entered s t .handover a) (ht : t.working.handoverTime ≠ 0) :
    Stands s t := fun ch hlo hhi => by
  obtain ⟨hsource, helapsed, hsnap⟩ := h.source
  simp only [contribution, hsource, helapsed, levelToward_at_start _ _ ht, hsnap ch hlo hhi]

theorem Entered.stands_hold {s t : State} {a : Arbiter} (h : Entered s t .hold a) : Stands s t := fun ch hlo hhi => by
  obtain ⟨hsource, -, hsnap⟩ := h.source
  simp only [contribution, hsource, hsnap ch hlo hhi]

theorem stands_enterHold (s u : State) : Stands s (enterHold u (snapshotNow s)) :=
  (entered_of_arb (a := u.arb) rfl : Entered s _ .hold _).stands_hold

/-- At a trigger the contribution stands: a handover and a hold begin at the snapshot, and a source that waits is kept. -/
theorem stands_trigger {s u : State} (h : SourceKept s u) (ht : u.working.handoverTime ≠ 0) :
    Stands s (trigger u (snapshotNow s)) := by
  rcases trigger_cases u (snapshotNow s) with he | he | ⟨hwaits, he⟩ <;> rw [he]
  · rw [if_neg ht]
    exact (entered_of_arb (a := u.arb) rfl : Entered s _ .handover _).stands_handover ht
  · exact stands_enterHold s u
  · refine fun ch _ _ => contribution_of_kept h fun hcounts => ?_
    rw [← h.source] at hcounts
    rcases hwaits with hw | hw | hw <;> simp [hw] at hcounts

/-! ## The requests around a TAKE and a WRITE (R10, R135, R136) -/

/-- A request dropped, refused or answered leaves what the contribution is formed from as it was, or as its run leaves it. -/
theorem takeWith_console (s : State) (r : Req) (code : Byte) (valid ownerOnly : Bool) (run : State → Answer) :
    SameConsole s (takeWith s r code valid ownerOnly run) ∨
      SameConsole (run s).state (takeWith s r code valid ownerOnly run) := by
  have refused (res : Result) : SameConsole s (reply r code (refusal s code res)) :=
    sameConsole_of_coreView ((coreView_reply r code _).trans (coreView_refusal s code res))
  unfold takeWith
  split
  · exact .inl (sameConsole_of_coreView rfl)
  · split
    · exact .inl (sameConsole_setLink Iff.rfl rfl)
    · split
      · exact .inl (refused _)
      · split
        · exact .inl (refused _)
        · exact .inr (sameConsole_of_coreView (coreView_reply r code _))

/-! ## TAKE (R22) -/

theorem stands_takeControl {s : State} (x : Link) (ht : s.working.handoverTime ≠ 0) : Stands s (takeControl s x).1 := by
  unfold takeControl
  iterate 5 (split; · exact .refl s)
  exact stands_trigger (sourceKept_changeOwner s x .take) (by simpa using ht)

theorem stands_take {s : State} (r : Req) (ht : s.working.handoverTime ≠ 0) : Stands s (takeRequest s r .take) := by
  rcases takeWith_console s r Request.take.code Request.take.inRange Request.take.ownerOnly
    fun s => answer s r.link .take with h | h
  · exact h.stands
  · exact (stands_takeControl r.link ht).trans h.stands

/-! ## The loss of a link (R15, R25) -/

theorem sourceKept_linkLost (s : State) (x : Link) : SourceKept s (linkLost s x) :=
  sourceKept_of_eq (linkLost_arb s x) (linkLost_working s x)

theorem buffer_linkLost (s : State) (x y : Link) : (linkOf (linkLost s x) y).buffer = (linkOf s y).buffer := by
  rw [linkLost, linkOf_offerReport]
  exact buffer_setLink (by rfl) y

/-- Outside MERGE the target counts the same links whatever links are LIVE. -/
theorem stands_of_links {s t : State} (harb : t.arb = s.arb) (hw : t.working = s.working)
    (hbuffer : ∀ x, (linkOf t x).buffer = (linkOf s x).buffer) (hm : s.working.sourceMode ≠ .merge) : Stands s t :=
  fun ch _ _ => contribution_of_kept (sourceKept_of_eq harb hw) fun _ =>
    ⟨by rw [hw], modeTarget_congr (heard_congr (by rw [hw]) (by rw [harb]) fun he => absurd he hm) fun x _ => by
      rw [bufferLevel, hbuffer, ← bufferLevel]⟩

theorem stands_afterLoss {s : State} (x : Link) (hp : s.phase ≠ .inReset) (ht : s.working.handoverTime ≠ 0) :
    Stands s (afterLoss s x) := by
  have hp' : (linkLost s x).phase ≠ .inReset := by simpa using hp
  have ht' : (linkLost s x).working.handoverTime ≠ 0 := by simpa using ht
  by_cases howner : (linkLost s x).arb.owner = x
  · by_cases hother : (linkLost s x).working.sourceMode ≠ .sole ∧ isLive (linkLost s x) (otherLink x) = true
    · rw [afterLoss, noticeDown_owner_standby _ hp' howner hother.1 hother.2]
      have hkept : SourceKept s { linkLost s x with arb := { (linkLost s x).arb with lock := false } } :=
        (sourceKept_linkLost s x).trans ⟨rfl, rfl, rfl, rfl⟩
      exact stands_trigger (hkept.trans (sourceKept_changeOwner _ _ _)) (by simpa using ht')
    · rw [afterLoss, noticeDown_owner_alone _ hp' howner hother]
      exact stands_enterHold s _
  · rw [afterLoss_standby hp (by simpa using howner)]
    split
    · exact stands_trigger (sourceKept_linkLost s x) ht'
    · exact stands_of_links (linkLost_arb s x) (linkLost_working s x) (buffer_linkLost s x) ‹_›

theorem stands_lossTick {s : State} (x : Link) (hp : s.phase ≠ .inReset) (ht : s.working.handoverTime ≠ 0) :
    Stands s (lossTick s x) := by
  cases htimer : (linkOf s x).timer with
  | none => rw [lossTick_stopped htimer]; exact .refl s
  | some n =>
    by_cases hdue : s.working.lossTime ≤ n + 1
    · rw [(lossTick_expires htimer hdue).2]
      exact stands_afterLoss x hp ht
    · rw [(lossTick_counts htimer (by omega)).2]
      exact (sameConsole_setLink (by rfl) (by rfl)).stands

/-! ## A link's change into LIVE (R13, R16, R26, R27, R31) -/

theorem becomesLive_of_acquiredRx {l : LinkRx} (hs : l.state = .acquiring) (h : (acquiredRx l).state = .live) :
    becomesLive l := by
  refine ⟨hs, Nat.not_lt.mp fun hcount => ?_⟩
  rw [acquiredRx_of_counting hs hcount, hs] at h
  cases h

theorem sourceKept_linkGained (s : State) (x : Link) : SourceKept s (linkGained s x) :=
  sourceKept_of_eq (linkGained_arb s x) (linkGained_working s x)

theorem buffer_linkGained (s : State) (x y : Link) : (linkOf (linkGained s x) y).buffer = (linkOf s y).buffer := by
  rw [linkGained, linkOf_offerReport]
  exact buffer_setLink (by rw [acquiredRx_frame]) y

/-- The arbiter's act on a link's change into LIVE: a trigger, or outside MERGE none. -/
theorem stands_acquire {s : State} {x : Link} (hp : s.phase ≠ .inReset) (ht : s.working.handoverTime ≠ 0)
    (hlive : becomesLive (linkOf s x)) : Stands s (acquire s x) := by
  have hp' : (linkGained s x).phase ≠ .inReset := by simpa using hp
  have hkept := sourceKept_linkGained s x
  rw [acquire_of_becomesLive hlive]
  cases hret : returns (linkGained s x) x with
  | true =>
    rw [noticeLive_returns _ hp' hret]
    exact stands_trigger (hkept.trans (sourceKept_returnTo _ x)) (by simpa using ht)
  | false =>
    cases hrec : reclaims (linkGained s x) x with
    | true =>
      rw [noticeLive_reclaims _ hp' hret hrec]
      exact stands_trigger (hkept.trans (sourceKept_changeOwner _ x .reclaim)) (by simpa using ht)
    | false =>
      rw [noticeLive_keeps _ hp' hret hrec]
      split
      · exact stands_trigger hkept (by simpa using ht)
      · rename_i hm
        exact stands_of_links (linkGained_arb s x) (linkGained_working s x) (buffer_linkGained s x) (by simpa using hm)

/-- A link that is not LIVE is not heard while the console source is NORMAL or HANDOVER (R25, R31). -/
theorem heard_of_not_live {s : State} {x : Link} (h : ConsoleInv s) (hp : s.phase ≠ .inReset) (hdead : isLive s x = false)
    (hcounts : s.arb.source = .normal ∨ s.arb.source = .handover) : heard s x = false := by
  have hfits := sourceFits_of_consoleInv h hp
  have unowned (hm : s.working.sourceMode ≠ .isolated) : (s.arb.owner == x) = false := by
    refine beq_false_of_ne fun howner => ?_
    rw [howner, hdead] at hfits
    rcases hcounts with hsrc | hsrc <;> simp [hsrc, sourceFits, hm] at hfits
  unfold heard
  split
  case h_1 => rfl
  case h_4 => exact hdead
  all_goals
    rename_i hm
    exact unowned (by simp [hm])

/-- The levels of a link that is not LIVE do not move the contribution. -/
theorem stands_levelsAccepted {s : State} {x : Link} (b : Nat) (levels : List Byte) (h : ConsoleInv s)
    (hp : s.phase ≠ .inReset) (hdead : isLive s x = false) : Stands s (levelsAccepted s x b levels) := by
  have hlive (y : Link) : isLive (levelsAccepted s x b levels) y = isLive s y := by
    rw [isLive, state_levelsAccepted, isLive]
  refine fun ch _ _ => contribution_of_kept ⟨rfl, rfl, rfl, rfl⟩ fun hcounts =>
    ⟨rfl, modeTarget_congr (heard_congr rfl rfl fun _ => hlive) fun y hy => ?_⟩
  have hne : y ≠ x := by
    rintro rfl
    rw [heard_of_not_live h hp hdead hcounts] at hy
    cases hy
  rw [bufferLevel, linkOf_levelsAccepted, linkOf_setLink_of_ne s _ hne, ← bufferLevel]

/-! ## The bytes that are no level frame -/

theorem isLive_takeControl (s : State) (x y : Link) : isLive (takeControl s x).1 y = isLive s y := by
  unfold takeControl
  iterate 5 (split; rfl)
  rw [trigger_frame]
  exact isLive_changeOwner s x y .take

theorem isLive_of_arbiterActs {s t : State} (h : ArbiterActs s t) (x : Link) : isLive t x = isLive s x := by
  rw [h]; rfl

theorem isLive_writeFrom (s : State) (x : Link) (a : Nat) (ws : List Word) (y : Link) :
    isLive (writeFrom s x a ws).1 y = isLive s y := by
  rw [writeFrom_of_words (rfl : writeWords s a ws = (_, _, _))]
  exact (isLive_of_arbiterActs (arbiterActs_actedOn s _ a _) y).trans ((wordKeeps_writeWords s a ws).live y)

/-- No request moves a link in or out of LIVE. -/
theorem isLive_answer (s : State) (x : Link) (q : Request) (y : Link) : isLive (answer s x q).state y = isLive s y := by
  have console {t : State} (h : consoleView t = consoleView s) : isLive t y = isLive s y := isLive_of_consoleView h y
  have core {t : State} (h : coreView t = coreView s) : isLive t y = isLive s y := console (consoleView_of_coreView h)
  cases q
  case index => rfl
  case write => exact isLive_writeFrom s x _ _ y
  case read => exact core (coreView_answerRead s x _)
  case hold => exact core (coreView_holdPatch s)
  case apply => exact core (coreView_answerApply s)
  case discard => exact core (coreView_discardPatch s)
  case copy => exact core (coreView_startCopy s _ _ _)
  case verify => exact core (coreView_startVerify s _)
  case switch => exact core (coreView_switchBank s _)
  case go => exact console (consoleView_goPlayback s _)
  case back => exact console (consoleView_backPlayback s _)
  case goto => exact console (consoleView_gotoPlayback s _ _ _)
  case pause => exact core (coreView_pausePlayback s _)
  case resume => exact core (coreView_resumePlayback s _)
  case release => exact core (coreView_releasePlayback s _ _)
  case take => exact isLive_takeControl s x y
  case lock => simp only [answer, plain, lockControl]; split <;> rfl
  case unlock => rfl
  case restart => exact core (coreView_restartPart s)

theorem isLive_takeBytes (s : State) (r : Req) (code : Byte) (params : List Byte) (y : Link) :
    isLive (takeBytes s r code params) y = isLive s y := by
  unfold takeBytes
  split
  · rename_i q _
    rcases takeWith_console s r q.code q.inRange q.ownerOnly fun s => answer s r.link q with h | h
    · exact h.live y
    · exact (h.live y).trans (isLive_answer s r.link q y)
  · rcases takeWith_console s r code false false fun s => ⟨s, .badRequest, []⟩ with h | h <;> exact h.live y

theorem isLive_acceptRequest (s : State) (x : Link) (unit tag code : Byte) (params : List Byte) (y : Link) :
    isLive (acceptRequest s x unit tag code params) y = isLive s y := by
  have counted (u : State) (c : LinkCounters) : isLive (setLink u x { linkOf u x with counters := c }) y = isLive u y :=
    isLive_setLink_of_state (by rfl) y
  unfold acceptRequest
  dsimp only
  split
  · exact counted s _
  · split
    · exact (isLive_takeBytes _ _ code params y).trans (counted s _)
    · exact (counted _ _).trans (counted s _)

theorem isLive_discard (s : State) (x : Link) (rx : Reception) (count : LinkCounters → LinkCounters) (y : Link) :
    isLive (discard s x rx count) y = isLive s y :=
  isLive_setLink_of_state (by rfl) y

theorem isLive_setRx (s : State) (x : Link) (rx : Reception) (y : Link) :
    isLive (setLink s x { linkOf s x with rx := rx }) y = isLive s y :=
  isLive_setLink_of_state (by rfl) y

/-- A byte on link `x` completes a good level frame, or moves no link in or out of LIVE. -/
def FrameOrQuiet (s t : State) (x : Link) : Prop :=
  (∃ b levels, t = acquire (levelsAccepted s x b levels) x) ∨ ∀ y, isLive t y = isLive s y

theorem frameDone_frameOrQuiet (s : State) (x : Link) (typ : Byte) (payload : List Byte) (hi lo : Byte) :
    FrameOrQuiet s (frameDone s x typ payload hi lo) x := by
  have discarded (count : LinkCounters → LinkCounters) : FrameOrQuiet s (discard s x .hunt count) x :=
    .inr (isLive_discard s x .hunt count)
  unfold frameDone
  split
  · exact discarded _
  · split
    · split
      · dsimp only
        split
        · exact .inl ⟨_, _, acceptLevels_hunt s x _ _⟩
        · exact discarded _
      · exact discarded _
    · split
      · split
        · exact .inr fun y => (isLive_acceptRequest _ x _ _ _ _ y).trans (isLive_setRx s x .hunt y)
        · exact discarded _
      · exact discarded _

theorem takeByte_frameOrQuiet (s : State) (x : Link) (b : Byte) : FrameOrQuiet s (takeByte s x b) x := by
  have same : FrameOrQuiet s s x := .inr fun _ => rfl
  have stays (rx : Reception) : FrameOrQuiet s (setLink s x { linkOf s x with rx := rx }) x := .inr (isLive_setRx s x rx)
  unfold takeByte
  split
  · exact same
  · split
    case h_1 =>
      split
      · exact stays _
      · exact same
    case h_2 =>
      unfold headerByte
      split
      · split
        · exact .inr (isLive_discard s x _ _)
        · exact stays _
      · exact stays _
    case h_3 =>
      unfold bodyByte
      split
      · exact stays _
      · split
        · exact stays _
        · exact frameDone_frameOrQuiet s x _ _ _ _
    case h_4 => exact same

/-- A byte that makes its link LIVE leaves the contribution as it was. -/
theorem stands_takeByte {s : State} {x : Link} (b : Byte) (h : ConsoleInv s) (hp : s.phase ≠ .inReset)
    (ht : s.working.handoverTime ≠ 0) (hs : (linkOf s x).state = .acquiring)
    (hlive : (linkOf (takeByte s x b) x).state = .live) : Stands s (takeByte s x b) := by
  have hdead : isLive s x = false := by simp [isLive, hs]
  rcases takeByte_frameOrQuiet s x b with ⟨n, levels, he⟩ | hquiet
  · rw [he] at hlive ⊢
    rw [linkOf_acquire, linkOf_setLink_self] at hlive
    have hgained := becomesLive_of_acquiredRx ((state_levelsAccepted s x n levels x).trans hs) hlive
    exact (stands_levelsAccepted n levels h hp hdead).trans (stands_acquire hp ht hgained)
  · have := (hquiet x).symm.trans (isLive_iff.mpr hlive)
    rw [hdead] at this
    cases this

/-! ## A WRITE (R35, R36, R138) -/

theorem buffer_of_coreView {s t : State} (h : coreView t = coreView s) (x : Link) :
    (linkOf t x).buffer = (linkOf s x).buffer :=
  (sameConsole_of_coreView h).buffer x

theorem takeGlobal_links (s : State) (i : Nat) (v : Word) : (takeGlobal s i v).links = s.links := by
  unfold takeGlobal
  dsimp only
  split <;> rfl

theorem buffer_writeStatus (s : State) (i : Nat) (x : Link) :
    (linkOf (writeStatus s i).state x).buffer = (linkOf s x).buffer := by
  unfold writeStatus
  split
  · exact buffer_setLink (by rfl) x
  · split
    · exact buffer_setLink (by rfl) x
    · split <;> rfl

/-- No word of a WRITE changes a buffer. -/
theorem buffer_writeWord (s : State) (a : Nat) (v : Word) (x : Link) :
    (linkOf (writeWord s a v).state x).buffer = (linkOf s x).buffer := by
  unfold writeWord
  split
  case h_2 =>
    split
    · rfl
    · rw [linkOf, WordResult.state, takeGlobal_links, ← linkOf]
  case h_3 => exact buffer_writeStatus s _ x
  case h_4 => exact buffer_of_coreView (coreView_writePlayback s _ _ v) x
  case h_7 => split <;> rfl
  case h_8 =>
    split
    · exact buffer_of_coreView (coreView_writeActive s _ v) x
    · exact buffer_of_coreView (coreView_writeStaged s _ _ v) x
  all_goals rfl

theorem buffer_writeWords (s : State) (a : Nat) (ws : List Word) (x : Link) :
    (linkOf (writeWords s a ws).1 x).buffer = (linkOf s x).buffer := by
  induction ws generalizing s a with
  | nil => rfl
  | cons w ws ih =>
    have hword := buffer_writeWord s a w x
    simp only [writeWords]
    split
    · rename_i hw; rw [hw] at hword; exact hword
    · rename_i hw; rw [hw] at hword; exact (ih _ _).trans hword

/-- What the arbiter makes of a WRITE's words: nothing where the mode is the one it was, or a trigger after ownership has been
placed. -/
theorem actedOn_cases (s u : State) (a n : Nat) :
    (u.working.sourceMode = s.working.sourceMode ∧ actedOn s u a n = u) ∨
      ∃ v, v.working = u.working ∧ SourceKept u v ∧ actedOn s u a n = trigger v (snapshotNow s) := by
  unfold actedOn arbiterWritten
  by_cases hm : u.working.sourceMode = s.working.sourceMode
  · simp only [hm, bne_self_eq_false, Bool.false_eq_true, if_false, Bool.false_or]
    split
    · exact .inr ⟨_, changeOwner_working u _ _, sourceKept_changeOwner u _ _, rfl⟩
    · exact .inl ⟨trivial, rfl⟩
  · simp only [bne_iff_ne.mpr hm, if_true, Bool.true_or]
    have placed : SourceKept u (placeOwner u) := placeOwner_eq u ▸ sourceKept_ownerMoved u _ _
    refine .inr ?_
    split
    · exact ⟨_, (changeOwner_working _ _ _).trans (placeOwner_working u), placed.trans (sourceKept_changeOwner _ _ _), rfl⟩
    · exact ⟨_, placeOwner_working u, placed, rfl⟩

/-- A WRITE that leaves the loss fade time, and the handover time unless it moves the source, moves no contribution. -/
theorem stands_writeFrom {s t : State} {x : Link} {a : Nat} {ws : List Word} (ht : t = (writeFrom s x a ws).1)
    (htime : t.working.handoverTime ≠ 0) (hfade : t.working.lossFadeTime = s.working.lossFadeTime)
    (hmoves : t.working.handoverTime = s.working.handoverTime ∨ t.working.sourceMode ≠ s.working.sourceMode ∨
      t.arb.owner ≠ s.arb.owner) : Stands s t := by
  have hwords := wordKeeps_writeWords s a ws
  have hbuffer := buffer_writeWords s a ws
  rcases hw : writeWords s a ws with ⟨u, n, res⟩
  rw [hw] at hwords hbuffer
  rw [writeFrom_of_words hw] at ht
  have hworking : t.working = u.working := by rw [ht, arbiterActs_actedOn s u a n]
  rw [hworking] at htime hfade hmoves
  have hkept : SourceKept s u := ⟨by rw [hwords.arb], by rw [hwords.arb], by rw [hwords.arb], hfade⟩
  subst ht
  rcases actedOn_cases s u a n with ⟨hmode, hacted⟩ | ⟨v, hvw, hv, hacted⟩
  · have howner : u.arb.owner = s.arb.owner := congrArg Arbiter.owner hwords.arb
    have hkeeps : u.working.handoverTime = s.working.handoverTime :=
      hmoves.resolve_right (by simp [hacted, hmode, howner])
    rw [hacted]
    refine fun ch _ _ => contribution_of_kept (t := u) hkept fun _ => ⟨hkeeps, ?_⟩
    refine modeTarget_congr (heard_congr hmode howner fun _ => hwords.live) fun y _ => ?_
    rw [bufferLevel, hbuffer, ← bufferLevel]
  · rw [hacted]
    exact stands_trigger (hkept.trans hv) (by rwa [hvw])

/-- The same of the WRITE request, dropped, refused or run. -/
theorem stands_takeWrite {s t : State} {r : Req} {code : Byte} {valid ownerOnly : Bool} {a : Nat} {ws : List Word}
    (ht : t = takeWith s r code valid ownerOnly fun s => answerWrite s r.link a ws)
    (htime : t.working.handoverTime ≠ 0) (hfade : t.working.lossFadeTime = s.working.lossFadeTime)
    (hmoves : t.working.handoverTime = s.working.handoverTime ∨ t.working.sourceMode ≠ s.working.sourceMode ∨
      t.arb.owner ≠ s.arb.owner) : Stands s t := by
  rcases takeWith_console s r code valid ownerOnly fun s => answerWrite s r.link a ws with h | h <;> rw [← ht] at h
  · exact h.stands
  · rw [h.working] at htime hfade hmoves
    rw [h.arb] at hmoves
    exact (stands_writeFrom rfl htime hfade hmoves).trans h.stands

/-- The words of the source mode and of the preferred link leave the times. -/
theorem times_writeWord {i : Nat} (s : State) (v : Word) (hi : i ≤ 1) :
    (writeWord s i v).state.working.handoverTime = s.working.handoverTime ∧
      (writeWord s i v).state.working.lossFadeTime = s.working.lossFadeTime := by
  rw [writeWord, placeOf_global (by omega)]
  dsimp only
  split
  · exact ⟨rfl, rfl⟩
  · rw [WordResult.state, takeGlobal_working]
    interval_cases i <;> exact ⟨rfl, rfl⟩

theorem writeWords_singleton (s : State) (a : Nat) (v : Word) : (writeWords s a [v]).1 = (writeWord s a v).state := by
  simp only [writeWords]
  split <;> simp only [*, WordResult.state]

theorem writeFrom_working (s : State) (x : Link) (a : Nat) (ws : List Word) :
    (writeFrom s x a ws).1.working = (writeWords s a ws).1.working := by
  rw [writeFrom_of_words (rfl : writeWords s a ws = (_, _, _)), arbiterActs_actedOn s (writeWords s a ws).1]

/-- A WRITE of the source mode or of the preferred link alone. -/
theorem stands_takeWordWrite {s : State} (r : Req) {i : Nat} (v : Word) (hi : i ≤ 1) (ht : s.working.handoverTime ≠ 0) :
    Stands s (takeWordWrite s r i v) := by
  obtain ⟨htime, hfade⟩ := times_writeWord s v hi
  rw [← writeWords_singleton, ← writeFrom_working s r.link] at htime hfade
  rcases takeWith_console s r 0x02 true true fun s => answerWrite s r.link i [v] with h | h
  · exact h.stands
  · exact (stands_writeFrom rfl (htime ▸ ht) hfade (.inl htime)).trans h.stands

/-! ## The obligation -/

theorem stands_of_next {s t u : State} (h : (.next u : Host.Outcome State Fault Refusal) = .next t) (hu : Stands s u) :
    Stands s t := by
  cases h; exact hu

/-- Settles O17, change by change: each makes a trigger, enters HOLD, or leaves what the contribution is formed from. -/
theorem sourceChangesDoNotJump : Obligations.SourceChangesDoNotJump := by
  intro s t r x v ws b hp stands
  refine ⟨fun htime i hi hexec => ?_, fun htime hinv hacq hlive i hi hexec => ?_, fun htime hfade hmoves hexec => ?_⟩
  · simp only [List.mem_cons, List.not_mem_nil, or_false] at hi
    rcases hi with rfl | rfl | rfl | rfl | rfl
    · exact stands_of_next hexec (stands_take r htime)
    · exact stands_of_next hexec (stands_lossTick x hp htime)
    · have hexpiry : exec (.lossTimerExpiry x) s = if lossDue s x then .next (lossTick s x) else .next s := rfl
      rw [hexpiry] at hexec
      split at hexec
      · exact stands_of_next hexec (stands_lossTick x hp htime)
      · exact stands_of_next hexec (.refl s)
    · exact stands_of_next hexec (stands_takeWordWrite r v (Nat.zero_le 1) htime)
    · exact stands_of_next hexec (stands_takeWordWrite r v le_rfl htime)
  · have byte : exec (.receivedByte x b) s = .next t → stands := fun h => by
      obtain ⟨-, rfl⟩ := settle_eq_next.mp h
      exact stands_takeByte b hinv hp htime hacq hlive
    simp only [List.mem_cons, List.not_mem_nil, or_false] at hi
    rcases hi with rfl | rfl
    · exact byte hexec
    · by_cases hdue : completionDue s x = true
      · exact byte (exec_frameComplete b hdue ▸ hexec)
      · have hnone : exec (.frameComplete x b) s = .next s := if_neg hdue
        exact stands_of_next (hnone ▸ hexec) (.refl s)
  · have htake : exec (.write r ws) s = .next (takeRequest s r (.write ws)) := rfl
    rw [htake] at hexec
    cases hexec
    exact stands_takeWrite rfl htime hfade hmoves

end Sys2Proof.Machine
end

section
/-! The merge of a channel (R96 to R98): the largest contribution of an HTP channel, the winner of an LTP channel, and the
merge in safe mode (R106, R107). -/

namespace Sys2Proof.Machine

/-! ## Programs that read words and may fail -/

theorem ok_bind {ε α β : Type} (x : α) (f : α → Except ε β) : (Except.ok x >>= f) = f x := rfl

/-- A pass over a list of which no step fails gives each step's value. -/
theorem mapM_eq_ok {ε α β : Type} {l : List α} {f : α → Except ε β} {g : α → β} (h : ∀ x ∈ l, f x = .ok (g x)) :
    l.mapM f = .ok (l.map g) := by
  induction l with
  | nil => rfl
  | cons x l ih =>
    rw [List.forall_mem_cons] at h
    rw [List.mapM_cons, h.1, ih h.2]
    rfl

/-! ## The playbacks that hold a channel -/

theorem mem_holders {s : State} {ch : Nat} {p : PlaybackNo} :
    p ∈ holders s ch ↔ (playbackAt s p).list.any (·.channel == ch) = true := by
  simp [holders, allPlaybacks]

/-- No playback whose list has no entry for a channel holds it. -/
theorem holders_eq_nil {s : State} {ch : Nat} (h : ∀ p, entryFor (playbackAt s p).list ch = none) : holders s ch = [] := by
  refine List.filter_eq_nil_iff.mpr fun p _ => ?_
  have hnone := h p
  rw [entryFor, List.find?_eq_none] at hnone
  simpa using hnone

/-! ## HTP (R97) -/

/-- The largest of the console contribution and the playbacks' contributions. -/
theorem mergeHtp_isGreatest (k : Nat) (xs : List (PlaybackNo × Nat)) :
    IsGreatest {v | v = k ∨ ∃ x ∈ xs, v = x.2} (mergeHtp k xs) := by
  induction xs generalizing k with
  | nil =>
    refine ⟨.inl rfl, ?_⟩
    rintro v (rfl | ⟨x, hx, -⟩)
    · exact le_rfl
    · cases hx
  | cons x xs ih =>
    obtain ⟨hmem, hup⟩ := ih (max k x.2)
    have hfirst : max k x.2 ≤ mergeHtp k (x :: xs) := hup (.inl rfl)
    refine ⟨?_, ?_⟩
    · rcases hmem with hmax | ⟨y, hy, hlevel⟩
      · rcases max_choice k x.2 with hk | hx
        · exact .inl (hmax.trans hk)
        · exact .inr ⟨x, List.mem_cons_self, hmax.trans hx⟩
      · exact .inr ⟨y, List.mem_cons_of_mem x hy, hlevel⟩
    · rintro v (rfl | ⟨y, hy, rfl⟩)
      · exact (le_max_left _ _).trans hfirst
      · rcases List.mem_cons.mp hy with rfl | hy
        · exact (le_max_right _ _).trans hfirst
        · exact hup (.inr ⟨y, hy, rfl⟩)

/-! ## LTP (R98) -/

/-- A playback with its priority comes before another: it has a higher priority, or was taken later at the same one. -/
def beats (s : State) (p q : PlaybackNo × Nat) : Prop :=
  q.2 < p.2 ∨ (q.2 = p.2 ∧ takePlace s q.1 < takePlace s p.1)

theorem beats_asymm {s : State} {p q : PlaybackNo × Nat} (h : beats s p q) : ¬ beats s q p := by
  unfold beats at *; omega

theorem winner_cons_none {s : State} {ps : List (PlaybackNo × Nat)} (p : PlaybackNo × Nat) (h : winner s ps = none) :
    winner s (p :: ps) = some p := by
  rw [winner, h]

theorem winner_cons_beats {s : State} {ps : List (PlaybackNo × Nat)} {p w : PlaybackNo × Nat} (h : winner s ps = some w)
    (hb : beats s p w) : winner s (p :: ps) = some p := by
  rw [winner, h]
  exact if_pos hb

theorem winner_cons_stays {s : State} {ps : List (PlaybackNo × Nat)} {p w : PlaybackNo × Nat} (h : winner s ps = some w)
    (hb : ¬ beats s p w) : winner s (p :: ps) = some w := by
  rw [winner, h]
  exact if_neg hb

theorem winner_mem {s : State} {ps : List (PlaybackNo × Nat)} {w : PlaybackNo × Nat} (h : winner s ps = some w) : w ∈ ps := by
  induction ps generalizing w with
  | nil => cases h
  | cons p ps ih =>
    cases hrest : winner s ps with
    | none =>
      obtain rfl : p = w := by simpa [winner_cons_none p hrest] using h
      exact List.mem_cons_self
    | some u =>
      by_cases hb : beats s p u
      · obtain rfl : p = w := by simpa [winner_cons_beats hrest hb] using h
        exact List.mem_cons_self
      · obtain rfl : u = w := by simpa [winner_cons_stays hrest hb] using h
        exact List.mem_cons_of_mem p (ih hrest)

/-- The playback that comes before every other one wins. -/
theorem winner_eq_some {s : State} {ps : List (PlaybackNo × Nat)} {p : PlaybackNo × Nat} (hp : p ∈ ps)
    (h : ∀ q ∈ ps, q ≠ p → beats s p q) : winner s ps = some p := by
  induction ps with
  | nil => cases hp
  | cons c cs ih =>
    have hbest : ∀ q ∈ cs, q ≠ p → beats s p q := fun q hq => h q (List.mem_cons_of_mem c hq)
    by_cases hc : c = p
    · subst hc
      cases hrest : winner s cs with
      | none => exact winner_cons_none c hrest
      | some w =>
        by_cases hw : w = c
        · subst hw
          by_cases hb : beats s w w
          · exact winner_cons_beats hrest hb
          · exact winner_cons_stays hrest hb
        · exact winner_cons_beats hrest (hbest w (winner_mem hrest) hw)
    · have hrest := ih ((List.mem_cons.mp hp).resolve_left (Ne.symm hc)) hbest
      exact winner_cons_stays hrest (beats_asymm (h c List.mem_cons_self hc))

/-- The level paired with a playback in a list of pairs. -/
theorem find_paired {l : List PlaybackNo} {p : PlaybackNo} (f : PlaybackNo → Nat) (hp : p ∈ l) :
    (((l.map fun q => (q, f q)).find? (·.1 == p)).map (·.2)).getD 0 = f p := by
  induction l with
  | nil => cases hp
  | cons q l ih =>
    by_cases hq : q = p
    · simp [hq]
    · simpa [hq] using ih ((List.mem_cons.mp hp).resolve_left (Ne.symm hq))

/-- The console wins where its priority is above that of every playback. -/
theorem mergeLtp_console {s : State} {cp : Nat} {ps : List (PlaybackNo × Nat)} (k : Nat) (xs : List (PlaybackNo × Nat))
    (h : ∀ q ∈ ps, q.2 < cp) : mergeLtp s k cp xs ps = k := by
  unfold mergeLtp
  cases hw : winner s ps with
  | none => rfl
  | some w => exact if_pos (h w (winner_mem hw))

/-- The winner gives the level where its priority is not below the console's. -/
theorem mergeLtp_winner {s : State} {cp : Nat} {ps : List (PlaybackNo × Nat)} {w : PlaybackNo × Nat} (k : Nat)
    (xs : List (PlaybackNo × Nat)) (hw : winner s ps = some w) (h : cp ≤ w.2) :
    mergeLtp s k cp xs ps = ((xs.find? (·.1 == w.1)).map (·.2)).getD 0 := by
  rw [mergeLtp, hw]
  exact if_neg (by omega)

/-! ## The merged level -/

section Merged

variable {s : State} {ch : Nat} {m pr : PlaybackNo → Word} {cp : Word}

/-- A holding playback's level under its master. -/
def givenLevel (s : State) (ch : Nat) (m : PlaybackNo → Word) (p : PlaybackNo) : Nat := scale (heldLevel s p ch) (m p).toNat

theorem contributions_read (hm : ∀ p ∈ holders s ch, readWord s (masterAddr p) = some (m p)) :
    (holders s ch).mapM (contributionOf s ch) = .ok ((holders s ch).map fun p => (p, givenLevel s ch m p)) :=
  mapM_eq_ok fun p hp => by rw [contributionOf, need_eq_ok.mpr (hm p hp)]; rfl

theorem priorities_read (hp : ∀ p ∈ holders s ch, readWord s (priorityAddr p) = some (pr p)) :
    (holders s ch).mapM (priorityOf s) = .ok ((holders s ch).map fun p => (p, (pr p).toNat)) :=
  mapM_eq_ok fun p h => by rw [priorityOf, need_eq_ok.mpr (hp p h)]; rfl

theorem mergedLevel_htp (hm : ∀ p ∈ holders s ch, readWord s (masterAddr p) = some (m p)) :
    mergedLevel s ch false =
      .ok (mergeHtp (contribution s ch) ((holders s ch).map fun p => (p, givenLevel s ch m p))) := by
  rw [mergedLevel, contributions_read hm]; rfl

theorem mergedLevel_ltp (hm : ∀ p ∈ holders s ch, readWord s (masterAddr p) = some (m p))
    (hp : ∀ p ∈ holders s ch, readWord s (priorityAddr p) = some (pr p)) (hcp : readWord s 7 = some cp) :
    mergedLevel s ch true = .ok (mergeLtp s (contribution s ch) cp.toNat
      ((holders s ch).map fun p => (p, givenLevel s ch m p)) ((holders s ch).map fun p => (p, (pr p).toNat))) := by
  rw [mergedLevel, contributions_read hm, ok_bind, priorities_read hp, globalAddr, need_eq_ok.mpr hcp]; rfl

end Merged

/-- Settles O44: HTP by the fold's largest, LTP by the playback that comes before every other one. -/
theorem mergeTakesHighestOrWinner : Obligations.MergeTakesHighestOrWinner := by
  intro s ch m pr cp holds given hmasters
  have hmasters' : ∀ p ∈ holders s ch, readWord s (masterAddr p) = some (m p) := fun p hp => hmasters p (mem_holders.mp hp)
  refine ⟨?_, fun hpriorities hcp _ _ => ?_⟩
  · obtain ⟨hmem, hup⟩ :=
      mergeHtp_isGreatest (contribution s ch) ((holders s ch).map fun p => (p, givenLevel s ch m p))
    refine ⟨_, mergedLevel_htp hmasters', hup (.inl rfl), fun p hp => ?_, ?_⟩
    · exact hup (.inr ⟨_, List.mem_map_of_mem (mem_holders.mpr hp), rfl⟩)
    · refine hmem.imp_right fun ⟨x, hx, hlevel⟩ => ?_
      obtain ⟨p, hp, rfl⟩ := List.mem_map.mp hx
      exact ⟨p, mem_holders.mp hp, hlevel⟩
  · have hpriorities' : ∀ p ∈ holders s ch, readWord s (priorityAddr p) = some (pr p) :=
      fun p hp => hpriorities p (mem_holders.mp hp)
    rw [mergedLevel_ltp hmasters' hpriorities' hcp]
    refine ⟨fun hconsole => ?_, fun p hp hle hbest => ?_⟩
    · rw [mergeLtp_console]
      rintro _ hpair
      obtain ⟨q, hq, rfl⟩ := List.mem_map.mp hpair
      exact hconsole q (mem_holders.mp hq)
    · have hwin : winner s ((holders s ch).map fun p => (p, (pr p).toNat)) = some (p, (pr p).toNat) := by
        refine winner_eq_some (List.mem_map_of_mem (mem_holders.mpr hp)) ?_
        rintro _ hpair hne
        obtain ⟨q, hq, rfl⟩ := List.mem_map.mp hpair
        exact hbest q (mem_holders.mp hq) fun he => hne (by rw [he])
      rw [mergeLtp_winner _ _ hwin hle, find_paired _ (mem_holders.mpr hp)]
      rfl

/-! ## Safe mode (R106, R107, R110) -/

theorem scale_255 (l : Nat) : scale l 255 = l := by unfold scale; omega

/-- An HTP channel that no playback holds is at the console contribution. -/
theorem mergedLevel_unheld {s : State} {ch : Nat} (h : holders s ch = []) :
    mergedLevel s ch false = .ok (contribution s ch) := by
  rw [mergedLevel, h]; rfl

/-- In safe mode no region governs, and a circuit takes its level of the safe patch. -/
theorem compose_safe {s : State} (c period : Nat) (hs : s.safeMode = true) :
    compose s c period = (patchedSafe s c >>= fun v => .ok (patchedValue s v)) := by
  have hgov : governing s c = .ok none := if_pos hs
  unfold compose patchStage
  rw [hgov, ok_bind, if_pos hs]
  cases patchedSafe s c <;> rfl

/-- A circuit of the safe patch reads the grand master alone where no playback holds its channel. -/
theorem patchedSafe_unheld {s : State} {c : Nat} (hs : s.safeMode = true) (hlo : 1 ≤ c) (hhi : c ≤ 512)
    (h : ∀ p, entryFor (playbackAt s p).list c = none) :
    patchedSafe s c = (need s 8 >>= fun gm => .ok (.level (scale (contribution s c) gm.toNat))) := by
  have hentry : channelEntry s c = .ok 0 := if_pos hs
  have hmerged : mergedLevel s c (channelLtp 0) = .ok (contribution s c) := mergedLevel_unheld (holders_eq_nil h)
  have hdependent : ¬ channelIndependent 0 = true := by decide
  rw [patchedSafe, if_pos hhi, patchedBy, if_neg (by omega), if_neg (by omega), hentry, ok_bind, channelLevel, hmerged, ok_bind,
    if_neg hdependent, globalAddr]
  cases need s 8 with
  | error a => rfl
  | ok gm =>
    simp only [ok_bind, scale_255]
    rfl

/-- Settles O43. -/
theorem safeModeIsOneToOne : Obligations.SafeModeIsOneToOne := by
  intro s c period gm hs hlo
  rw [compose_safe c period hs]
  refine ⟨fun hhi hfree hgm => ?_, fun hhi hfree hgm => ?_, fun hhi => ?_⟩
  · rw [patchedSafe_unheld hs hlo hhi hfree, need_eq_ok.mpr hgm]; rfl
  · rw [patchedSafe_unheld hs hlo hhi hfree, need_eq_error.mpr ⟨hgm, rfl⟩]; rfl
  · rw [patchedSafe, if_neg (by omega)]; rfl

end Sys2Proof.Machine
end

section
/-! The words that the composition of a circuit reads, in their order (R102, R121): the first faulted one ends it. Here those of
a channel and of a patch entry. -/

namespace Sys2Proof.Machine

/-! ## The order in which words are read (R121) -/

/-- The first address of a list whose word holds a parity fault. -/
def firstFault (s : State) (as : List Nat) : Option Nat := as.find? fun a => (stored s a).bad

/-- A program reads the words of these addresses in this order: the first faulted one ends it, and it completes where none
is. -/
def ReadsWords {α : Type} (s : State) (as : List Nat) (x : Except Nat α) : Prop :=
  (∀ a, firstFault s as = some a → x = .error a) ∧ (firstFault s as = none → ∃ v, x = .ok v)

section Reads

variable {α β : Type} {s : State}

theorem firstFault_append (as bs : List Nat) : firstFault s (as ++ bs) = (firstFault s as).or (firstFault s bs) :=
  List.find?_append

theorem readsWords_ok (v : α) : ReadsWords s [] (.ok v : Except Nat α) := ⟨fun _ h => (nomatch h), fun _ => ⟨v, rfl⟩⟩

theorem readsWords_need (a : Nat) : ReadsWords s [a] (need s a) := by
  cases hbad : (stored s a).bad with
  | true => simp [ReadsWords, firstFault, hbad, need, readWord]
  | false => simp [ReadsWords, firstFault, hbad, need, readWord]

/-- A program followed by one that its value gives reads the words of the first and then those of the second. -/
theorem readsWords_bind {as bs : List Nat} {x : Except Nat α} {f : α → Except Nat β} (hx : ReadsWords s as x)
    (hf : ∀ v, x = .ok v → ReadsWords s bs (f v)) : ReadsWords s (as ++ bs) (x >>= f) := by
  unfold ReadsWords
  rw [firstFault_append]
  cases hfirst : firstFault s as with
  | some a =>
    rw [hx.1 a hfirst]
    exact ⟨fun _ hb => congrArg Except.error (Option.some.inj hb), fun hnone => nomatch hnone⟩
  | none =>
    obtain ⟨v, hv⟩ := hx.2 hfirst
    rw [Option.none_or, hv, ok_bind]
    exact hf v hv

theorem readsWords_map {as : List Nat} {x : Except Nat α} (f : α → β) (hx : ReadsWords s as x) :
    ReadsWords s as (x >>= fun v => .ok (f v)) := by
  rw [← List.append_nil as]
  exact readsWords_bind hx fun v _ => readsWords_ok (f v)

/-- A word read without a fault is the word as it is stored. -/
theorem val_of_need {a : Nat} {w : Word} (h : need s a = .ok w) : (stored s a).val = w :=
  (readWord_eq_some.mp (need_eq_ok.mp h)).2

theorem readsWords_cons {a : Nat} {bs : List Nat} {f : Word → Except Nat β} (h : ReadsWords s bs (f (stored s a).val)) :
    ReadsWords s (a :: bs) (need s a >>= f) :=
  readsWords_bind (readsWords_need a) fun _ hw => val_of_need hw ▸ h

/-- A pass over a list reads the word of each item. -/
theorem readsWords_mapM {l : List α} {f : α → Except Nat β} {addr : α → Nat} (h : ∀ x, ReadsWords s [addr x] (f x)) :
    ReadsWords s (l.map addr) (l.mapM f) := by
  induction l with
  | nil => exact readsWords_ok []
  | cons x l ih =>
    rw [List.mapM_cons]
    exact readsWords_bind (h x) fun y _ => readsWords_map (y :: ·) ih

end Reads

/-! ## The words of a channel and of a patch entry (R102) -/

/-- The address of a word of the active bank. -/
def liveAddr (s : State) (off : Nat) : Nat := bankBase s.active + off

/-- The words that a channel's level is formed from: its entry, the masters of its holders, for an LTP channel their
priorities and the console priority, and the grand master unless the channel is independent. -/
def channelWords (s : State) (ch : Nat) : List Nat :=
  let entry := (stored s (liveAddr s (channelOff ch))).val
  liveAddr s (channelOff ch) :: (holders s ch).map masterAddr ++
    (if channelLtp entry then (holders s ch).map priorityAddr ++ [7] else []) ++
    (if channelIndependent entry then [] else [8])

/-- The words that the patched level of a circuit is formed from. -/
def patchWords (s : State) (src : Nat) : List Nat :=
  let ch := (stored s (liveAddr s (patchOff src))).val.toNat
  [liveAddr s (patchOff src), liveAddr s (514 + 2 * src)] ++ (if 1 ≤ ch ∧ ch ≤ 512 then channelWords s ch else [])

section Patch

variable {s : State}

theorem needLive_patchChannel (src : Nat) : needLive s (patchOff src) = need s (liveAddr s (513 + 2 * src)) := rfl

theorem needLive_patchProportion (src : Nat) : needLive s (patchOff src + 1) = need s (liveAddr s (514 + 2 * src)) :=
  congrArg (fun off => need s (liveAddr s off)) (by unfold patchOff; omega)

theorem readsWords_mergedLevel (ch : Nat) (ltp : Bool) :
    ReadsWords s ((holders s ch).map masterAddr ++ if ltp then (holders s ch).map priorityAddr ++ [7] else [])
      (mergedLevel s ch ltp) := by
  refine readsWords_bind (readsWords_mapM fun p => readsWords_map _ (readsWords_need _)) fun xs _ => ?_
  cases ltp with
  | false => exact readsWords_ok _
  | true =>
    exact readsWords_bind (readsWords_mapM fun p => readsWords_map _ (readsWords_need _)) fun ps _ =>
      readsWords_map _ (readsWords_need 7)

theorem readsWords_channelLevel (ch : Nat) (entry : Word) :
    ReadsWords s ((holders s ch).map masterAddr ++
        (if channelLtp entry then (holders s ch).map priorityAddr ++ [7] else []) ++
        if channelIndependent entry then [] else [8]) (channelLevel s ch entry) := by
  refine readsWords_bind (readsWords_mergedLevel ch _) fun m _ => ?_
  cases channelIndependent entry with
  | true => exact readsWords_ok m
  | false => exact readsWords_map _ (readsWords_need 8)

theorem readsWords_patchedBy (hs : s.safeMode = false) (ch prop : Nat) :
    ReadsWords s (if 1 ≤ ch ∧ ch ≤ 512 then channelWords s ch else []) (patchedBy s ch prop) := by
  unfold patchedBy
  by_cases hzero : ch = 0
  · rw [if_pos hzero, if_neg (by omega)]
    exact readsWords_ok _
  by_cases hhigh : 512 < ch
  · rw [if_neg hzero, if_pos hhigh, if_neg (by omega)]
    exact readsWords_ok _
  have hentry : channelEntry s ch = need s (liveAddr s (channelOff ch)) := by rw [channelEntry, hs]; rfl
  rw [if_neg hzero, if_neg hhigh, if_pos (by omega), hentry]
  simp only [channelWords, List.cons_append]
  exact readsWords_cons (readsWords_map _ (readsWords_channelLevel ch _))

theorem readsWords_patchedFrom (hs : s.safeMode = false) (src : Nat) :
    ReadsWords s (patchWords s src) (patchedFrom s src) := by
  rw [patchedFrom, needLive_patchProportion]
  exact readsWords_cons (readsWords_cons (readsWords_patchedBy hs _ _))

end Patch

end Sys2Proof.Machine
end

section
/-! What the composition of a circuit gives (R93 to R96, R101 to R105, R109 to R119): the patched level, the stages of the
governing region, and the search for it. -/

namespace Sys2Proof.Machine

/-! ## The patched level (R94, R101, R103) -/

/-- The patched level of a circuit's patch entry, where no word read is faulted: 0 for channel 0, otherwise the merged level of
the channel, under the grand master unless the channel is independent, and under the proportion. -/
def PatchesTo (s : State) (src v : Nat) : Prop :=
  ∃ ch prop, readWord s (liveAddr s (513 + 2 * src)) = some ch ∧ readWord s (liveAddr s (514 + 2 * src)) = some prop ∧
    ((ch = 0 ∧ v = 0) ∨ (1 ≤ ch.toNat ∧ ch.toNat ≤ 512 ∧ prop.toNat ≤ 255 ∧
      ∃ entry m, readWord s (liveAddr s (2 + ch.toNat)) = some entry ∧
        mergedLevel s ch.toNat (channelLtp entry) = .ok m ∧
        ((channelIndependent entry = true ∧ v = scale m prop.toNat) ∨
          (channelIndependent entry = false ∧ ∃ gm, readWord s 8 = some gm ∧ v = scale (scale m gm.toNat) prop.toNat))))

section Patched

variable {s : State}

theorem patchedBy_channel {ch : Nat} {entry : Word} {l prop : Nat} (hs : s.safeMode = false) (hlo : 1 ≤ ch) (hhi : ch ≤ 512)
    (hprop : prop ≤ 255) (hentry : readWord s (liveAddr s (2 + ch)) = some entry) (hl : channelLevel s ch entry = .ok l) :
    patchedBy s ch prop = .ok (.level (scale l prop)) := by
  have hread : channelEntry s ch = .ok entry := by rw [channelEntry, hs]; exact need_eq_ok.mpr hentry
  rw [patchedBy, if_neg (by omega), if_neg (by omega), hread, ok_bind, hl, ok_bind, if_neg (by omega)]

theorem channelLevel_independent {ch m : Nat} {entry : Word} (hm : mergedLevel s ch (channelLtp entry) = .ok m)
    (h : channelIndependent entry = true) : channelLevel s ch entry = .ok m := by
  rw [channelLevel, hm, ok_bind, if_pos h]

theorem channelLevel_dependent {ch m : Nat} {entry gm : Word} (hm : mergedLevel s ch (channelLtp entry) = .ok m)
    (h : channelIndependent entry = false) (hgm : readWord s 8 = some gm) :
    channelLevel s ch entry = .ok (scale m gm.toNat) := by
  rw [channelLevel, hm, ok_bind, if_neg (by simp [h]), globalAddr, need_eq_ok.mpr hgm, ok_bind]

theorem patchedFrom_of_patchesTo {src v : Nat} (hs : s.safeMode = false) (h : PatchesTo s src v) :
    patchedFrom s src = .ok (.level v) := by
  obtain ⟨ch, prop, hch, hprop, hcases⟩ := h
  rw [patchedFrom, needLive_patchChannel, need_eq_ok.mpr hch, ok_bind, needLive_patchProportion, need_eq_ok.mpr hprop, ok_bind]
  rcases hcases with ⟨rfl, rfl⟩ | ⟨hlo, hhi, hle, entry, m, hentry, hm, ⟨hi, rfl⟩ | ⟨hi, gm, hgm, rfl⟩⟩
  · rfl
  · exact patchedBy_channel hs hlo hhi hle hentry (channelLevel_independent hm hi)
  · exact patchedBy_channel hs hlo hhi hle hentry (channelLevel_dependent hm hi hgm)

end Patched

/-! ## The stages of a composition -/

/-- The patched level of a governed circuit that is not parked: its own, or by ECHO that of its source (R104, R105). -/
def patchSource (s : State) (c r base : Nat) (flags : Word) : Except Nat Patched :=
  if regionEcho flags then needLive s (regionOff r + 4) >>= fun e => patchedEcho s c base e.toNat else patchedFrom s c

/-- The words of `patchSource`. -/
def sourceWords (s : State) (c r base : Nat) (flags : Word) : List Nat :=
  let src := (stored s (liveAddr s (2559 + 8 * r))).val.toNat + (c - base)
  if regionEcho flags then liveAddr s (2559 + 8 * r) :: (if 1 ≤ src ∧ src ≤ 1024 then patchWords s src else [])
  else patchWords s c

/-- The words of a governed circuit up to its patched level. -/
def frontWords (s : State) (c r base : Nat) : List Nat :=
  let flags := (stored s (liveAddr s (2557 + 8 * r))).val
  liveAddr s (2557 + 8 * r) :: if regionPark flags then [liveAddr s (2558 + 8 * r)] else sourceWords s c r base flags

/-- The words of the region stage for a patched level. -/
def regionWords (s : State) (r curve v : Nat) : List Nat :=
  (if curve = 0 then [] else [0x3000 + 33 * curve + v / 2048, 0x3000 + 33 * curve + v / 2048 + 1]) ++
    [liveAddr s (2562 + 8 * r), liveAddr s (2560 + 8 * r), liveAddr s (2561 + 8 * r)]

section Stages

variable {s : State} {c r base : Nat}

theorem needLive_region (r i : Nat) : needLive s (regionOff r + i) = need s (liveAddr s (2555 + i + 8 * r)) :=
  congrArg (fun off => need s (liveAddr s off)) (by unfold regionOff; omega)

theorem readsWords_region (r i : Nat) : ReadsWords s [liveAddr s (2555 + i + 8 * r)] (needLive s (regionOff r + i)) :=
  needLive_region (s := s) r i ▸ readsWords_need _

theorem readsWords_patchedEcho (hs : s.safeMode = false) (e : Nat) :
    ReadsWords s (if 1 ≤ e + (c - base) ∧ e + (c - base) ≤ 1024 then patchWords s (e + (c - base)) else [])
      (patchedEcho s c base e) := by
  unfold patchedEcho
  by_cases hhigh : 1025 ≤ e + (c - base)
  · rw [if_pos hhigh, if_neg (by omega)]
    exact readsWords_ok _
  by_cases hzero : e + (c - base) = 0
  · rw [if_neg hhigh, if_pos hzero, if_neg (by omega)]
    exact readsWords_ok _
  · rw [if_neg hhigh, if_neg hzero, if_pos (by omega)]
    exact readsWords_patchedFrom hs _

theorem readsWords_patchSource (hs : s.safeMode = false) (flags : Word) :
    ReadsWords s (sourceWords s c r base flags) (patchSource s c r base flags) := by
  unfold sourceWords patchSource
  cases regionEcho flags with
  | true =>
    rw [if_pos rfl, if_pos rfl, needLive_region]
    exact readsWords_cons (readsWords_patchedEcho hs _)
  | false => exact readsWords_patchedFrom hs c

theorem patchSource_of_patchesTo {flags : Word} {v : Nat} (hs : s.safeMode = false) (hecho : regionEcho flags = false)
    (h : PatchesTo s c v) : patchSource s c r base flags = .ok (.level v) := by
  rw [patchSource, if_neg (by simp [hecho]), patchedFrom_of_patchesTo hs h]

theorem patchSource_echo {flags e : Word} {v : Nat} (hs : s.safeMode = false) (hecho : regionEcho flags = true)
    (he : need s (liveAddr s (2559 + 8 * r)) = .ok e)
    (h : 1024 < e.toNat + (c - base) ∧ v = 0 ∨
      1 ≤ e.toNat + (c - base) ∧ e.toNat + (c - base) ≤ 1024 ∧ PatchesTo s (e.toNat + (c - base)) v) :
    patchSource s c r base flags = .ok (.level v) := by
  rw [patchSource, if_pos hecho, needLive_region, he, ok_bind, patchedEcho]
  rcases h with ⟨hhigh, rfl⟩ | ⟨hlo, hhi, hv⟩
  · rw [if_pos (by omega)]
  · rw [if_neg (by omega), if_neg (by omega), patchedFrom_of_patchesTo hs hv]

theorem patchStage_governed (h : governing s c = .ok (some (r, base))) :
    patchStage s c = (needLive s (regionOff r + 2) >>= fun flags =>
      if regionPark flags then needLive s (regionOff r + 3) >>= fun park => .ok (.parked park.toNat)
      else patchSource s c r base flags >>= fun v => .ok (.governed r (regionCurve flags) v)) := by
  unfold patchStage patchSource
  rw [h, ok_bind]
  refine congrArg (needLive s (regionOff r + 2) >>= ·) (funext fun flags => ?_)
  cases regionPark flags with
  | true => rfl
  | false =>
    cases regionEcho flags with
    | true => exact (bind_assoc (needLive s (regionOff r + 4)) _ _).symm
    | false => rfl

theorem readsWords_patchStage (hs : s.safeMode = false) (h : governing s c = .ok (some (r, base))) :
    ReadsWords s (frontWords s c r base) (patchStage s c) := by
  rw [patchStage_governed h, needLive_region]
  refine readsWords_cons ?_
  cases regionPark (stored s (liveAddr s (2557 + 8 * r))).val with
  | true => exact readsWords_map _ (readsWords_region r 3)
  | false => exact readsWords_map _ (readsWords_patchSource hs _)

theorem readsWords_dimmerLaw (curve v : Nat) :
    ReadsWords s (if curve = 0 then [] else [0x3000 + 33 * curve + v / 2048, 0x3000 + 33 * curve + v / 2048 + 1])
      (dimmerLaw s curve v) := by
  unfold dimmerLaw
  split
  · exact readsWords_ok v
  · exact readsWords_cons (readsWords_map _ (readsWords_need _))

theorem readsWords_regionStage (period r curve v : Nat) :
    ReadsWords s (regionWords s r curve v) (regionStage s c period r curve v) :=
  readsWords_bind (readsWords_dimmerLaw curve v) fun _ _ =>
    readsWords_bind (readsWords_region r 7) fun _ _ =>
      readsWords_bind (readsWords_region r 5) fun _ _ => readsWords_map _ (readsWords_region r 6)

end Stages

/-! ## One circuit -/

section Circuit

variable {s : State} {c period r base : Nat}

theorem compose_ungoverned (hs : s.safeMode = false) (h : governing s c = .ok none) :
    compose s c period = (patchedFrom s c >>= fun v => .ok (patchedValue s v)) := by
  unfold compose patchStage
  rw [h, ok_bind, if_neg (by simp [hs])]
  cases patchedFrom s c <;> rfl

theorem compose_of_patchStage_error {a : Nat} (h : patchStage s c = .error a) : compose s c period = .error a := by
  rw [compose, h]; rfl

theorem compose_governed {curve : Nat} {v : Patched} (h : patchStage s c = .ok (.governed r curve v)) :
    compose s c period = (regionStage s c period r curve (patchedValue s v).level >>= fun level =>
      .ok ⟨level, (patchedValue s v).drew⟩) := by
  rw [compose, h]; rfl

theorem compose_parked {flags park : Word} (h : governing s c = .ok (some (r, base)))
    (hflags : need s (liveAddr s (2557 + 8 * r)) = .ok flags) (hpark : regionPark flags = true)
    (hlevel : need s (liveAddr s (2558 + 8 * r)) = .ok park) : compose s c period = .ok ⟨park.toNat, false⟩ := by
  rw [compose, patchStage_governed h, needLive_region, hflags, ok_bind, if_pos hpark, needLive_region, hlevel]
  rfl

theorem patchStage_source {flags : Word} {v : Patched} (h : governing s c = .ok (some (r, base)))
    (hflags : need s (liveAddr s (2557 + 8 * r)) = .ok flags) (hpark : regionPark flags = false)
    (hv : patchSource s c r base flags = .ok v) : patchStage s c = .ok (.governed r (regionCurve flags) v) := by
  rw [patchStage_governed h, needLive_region, hflags, ok_bind, if_neg (by simp [hpark]), hv]
  rfl

theorem patchStage_error {a : Nat} (h : governing s c = .error a) : patchStage s c = .error a := by
  rw [patchStage, h]; rfl

/-- The level of a circuit through its region (R115 to R119). -/
theorem regionStage_eq {curve v u : Nat} {response preheat limit : Word} (hu : dimmerLaw s curve v = .ok u)
    (hr : need s (liveAddr s (2562 + 8 * r)) = .ok response) (hp : need s (liveAddr s (2560 + 8 * r)) = .ok preheat)
    (hl : need s (liveAddr s (2561 + 8 * r)) = .ok limit) :
    regionStage s c period r curve v =
      .ok (floorAndLimit preheat.toNat limit.toNat (slew response.toNat period (previousOutput s c) u)) := by
  rw [regionStage, hu, ok_bind, needLive_region, hr, ok_bind, needLive_region, hp, ok_bind, needLive_region, hl, ok_bind]

theorem dimmerLaw_curve {curve v : Nat} {y0 y1 : Word} (hc : 1 ≤ curve)
    (h0 : readWord s (0x3000 + 33 * curve + v / 2048) = some y0)
    (h1 : readWord s (0x3000 + 33 * curve + v / 2048 + 1) = some y1) :
    dimmerLaw s curve v = .ok (curveBetween y0.toNat y1.toNat (v % 2048)) := by
  have hp0 : need s (curveAddr curve (v / 2048)) = .ok y0 := need_eq_ok.mpr h0
  have hp1 : need s (curveAddr curve (v / 2048 + 1)) = .ok y1 := need_eq_ok.mpr h1
  rw [dimmerLaw, if_neg (by omega), hp0, ok_bind, hp1, ok_bind]

theorem protectedCircuit_of_flags {flags : Word} (h : governing s c = .ok (some (r, base)))
    (hflags : readWord s (liveAddr s (2557 + 8 * r)) = some flags) : protectedCircuit s c = .ok (regionProtect flags) := by
  have hread : needLive s (regionOff r + 2) = .ok flags := (needLive_region r 2).trans (need_eq_ok.mpr hflags)
  rw [protectedCircuit, h, ok_bind]
  exact congrArg (· >>= _) hread

theorem protectedCircuit_of_fault (h : governing s c = .ok (some (r, base)))
    (hflags : readWord s (liveAddr s (2557 + 8 * r)) = none) :
    protectedCircuit s c = .error (liveAddr s (2557 + 8 * r)) := by
  have hread : needLive s (regionOff r + 2) = .error (liveAddr s (2557 + 8 * r)) :=
    (needLive_region r 2).trans (need_eq_error.mpr ⟨hflags, rfl⟩)
  rw [protectedCircuit, h, ok_bind]
  exact congrArg (· >>= _) hread

end Circuit

/-! ## The governing region (R109, R110) -/

/-- The search passes a region: it covers no circuit, or it is read and does not cover the circuit. -/
def RegionPassed (s : State) (c r : Nat) : Prop :=
  readWord s (liveAddr s (2556 + 8 * r)) = some 0 ∨ ∃ n b, readWord s (liveAddr s (2556 + 8 * r)) = some n ∧
    readWord s (liveAddr s (2555 + 8 * r)) = some b ∧ (c < b.toNat ∨ b.toNat + n.toNat ≤ c)

section Governing

variable {s : State} {c r : Nat}

theorem covers_eq_true {base count c : Nat} : covers base count c = true ↔ base ≤ c ∧ c < base + count := by
  simp [covers]

theorem covers_eq_false {base count c : Nat} : covers base count c = false ↔ c < base ∨ base + count ≤ c := by
  rw [← Bool.not_eq_true, covers_eq_true]; omega

theorem needLive_regionCount (r : Nat) : needLive s (regionOff r + 1) = need s (liveAddr s (2556 + 8 * r)) :=
  needLive_region r 1

theorem needLive_regionBase (r : Nat) : needLive s (regionOff r) = need s (liveAddr s (2555 + 8 * r)) := rfl

theorem searchRegions_passed (rs : List Nat) (h : RegionPassed s c r) : searchRegions s c (r :: rs) = searchRegions s c rs := by
  refine searchRegions_passes rs ?_
  rw [needLive_regionCount, needLive_regionBase]
  rcases h with hzero | ⟨n, b, hn, hb, hout⟩
  · exact .inl (need_eq_ok.mpr hzero)
  · exact .inr ⟨n, b, need_eq_ok.mpr hn, need_eq_ok.mpr hb, covers_eq_false.mpr hout⟩

/-- The search comes to a region where it passes all before it. -/
theorem governing_eq_searchRegions (hs : s.safeMode = false) (hlo : 1 ≤ r) (hhi : r ≤ 9)
    (h : ∀ q, 1 ≤ q → q < r → RegionPassed s c q) : governing s c = searchRegions s c (List.range' r (9 - r)) := by
  induction r, hlo using Nat.le_induction with
  | base => rw [governing, hs]; rfl
  | succ r hlo ih =>
    have hrest : List.range' r (9 - r) = r :: List.range' (r + 1) (9 - (r + 1)) := by
      rw [show 9 - r = (9 - (r + 1)) + 1 by omega, List.range'_succ]
    rw [ih (by omega) fun q hq hlt => h q hq (by omega), hrest, searchRegions_passed _ (h r hlo (by omega))]

theorem governing_eq_searchRegions_cons (hs : s.safeMode = false) (hlo : 1 ≤ r) (hhi : r ≤ 8)
    (h : ∀ q, 1 ≤ q → q < r → RegionPassed s c q) :
    governing s c = searchRegions s c (r :: List.range' (r + 1) (8 - r)) := by
  rw [governing_eq_searchRegions hs hlo (by omega) h, show 9 - r = (8 - r) + 1 by omega, List.range'_succ]

/-- The search at a region where it passes all before it: it ends there at a region that covers the circuit and at a faulted
word. -/
theorem governing_at (hs : s.safeMode = false) (hlo : 1 ≤ r) (hhi : r ≤ 8)
    (h : ∀ q, 1 ≤ q → q < r → RegionPassed s c q) :
    (∀ n b, need s (liveAddr s (2556 + 8 * r)) = .ok n → need s (liveAddr s (2555 + 8 * r)) = .ok b →
      b.toNat ≤ c ∧ c < b.toNat + n.toNat → governing s c = .ok (some (r, b.toNat))) ∧
    (∀ a, need s (liveAddr s (2556 + 8 * r)) = .error a → governing s c = .error a) ∧
    (∀ n a, need s (liveAddr s (2556 + 8 * r)) = .ok n → n ≠ 0 → need s (liveAddr s (2555 + 8 * r)) = .error a →
      governing s c = .error a) := by
  rw [governing_eq_searchRegions_cons hs hlo hhi h]
  refine ⟨fun n b hn hb hc => ?_, fun a hn => ?_, fun n a hn hnz hb => ?_⟩
  · exact searchRegions_covers _ ((needLive_regionCount r).trans hn) ((needLive_regionBase r).trans hb)
      (covers_eq_true.mpr hc)
  · rw [searchRegions, needLive_regionCount, hn]; rfl
  · rw [searchRegions, needLive_regionCount, hn, ok_bind, if_neg hnz, needLive_regionBase, hb]; rfl

end Governing

/-! ## A circuit of no region, and a governed one -/

/-- The composition of a circuit of no region, whose patched level alone it is. -/
theorem compose_of_ungoverned {s : State} {c period : Nat} (hs : s.safeMode = false) (h : governing s c = .ok none) :
    protectedCircuit s c = .ok false ∧ (∀ v, PatchesTo s c v → compose s c period = .ok ⟨v, false⟩) ∧
      ReadsWords s (patchWords s c) (compose s c period) := by
  refine ⟨by rw [protectedCircuit, h]; rfl, fun v hv => ?_, ?_⟩
  · rw [compose_ungoverned hs h, patchedFrom_of_patchesTo hs hv]; rfl
  · rw [compose_ungoverned hs h]
    exact readsWords_map _ (readsWords_patchedFrom hs c)

section Governed

variable {s : State} {c period r base : Nat}

/-- What an ECHO or a circuit's own patch entry gives a governed circuit, where no word of it is faulted. -/
def SourceGives (s : State) (c r base : Nat) (flags : Word) (v : Nat) : Prop :=
  regionEcho flags = false ∧ PatchesTo s c v ∨ regionEcho flags = true ∧ ∃ e,
    readWord s (liveAddr s (2559 + 8 * r)) = some e ∧ (1024 < e.toNat + (c - base) ∧ v = 0 ∨
      1 ≤ e.toNat + (c - base) ∧ e.toNat + (c - base) ≤ 1024 ∧ PatchesTo s (e.toNat + (c - base)) v)

theorem patchSource_of_sourceGives {flags : Word} {v : Nat} (hs : s.safeMode = false) (h : SourceGives s c r base flags v) :
    patchSource s c r base flags = .ok (.level v) := by
  rcases h with ⟨hecho, hv⟩ | ⟨hecho, e, he, hv⟩
  · exact patchSource_of_patchesTo hs hecho hv
  · exact patchSource_echo hs hecho (need_eq_ok.mpr he) hv

theorem firstFault_cons_eq_none {a : Nat} {as : List Nat} :
    firstFault s (a :: as) = none ↔ (stored s a).bad = false ∧ firstFault s as = none := by
  simp [firstFault]

theorem readWord_of_sound {a : Nat} (h : (stored s a).bad = false) : readWord s a = some (stored s a).val :=
  readWord_eq_some.mpr ⟨h, rfl⟩

/-- The front words of a circuit that is not parked are the flags word and those of its patched level. -/
theorem frontWords_sound (hfront : firstFault s (frontWords s c r base) = none)
    (hpark : regionPark (stored s (liveAddr s (2557 + 8 * r))).val = false) :
    (stored s (liveAddr s (2557 + 8 * r))).bad = false ∧
      firstFault s (sourceWords s c r base (stored s (liveAddr s (2557 + 8 * r))).val) = none := by
  simp only [frontWords, hpark, Bool.false_eq_true, if_false] at hfront
  exact firstFault_cons_eq_none.mp hfront

theorem echoBase_sound {flags : Word} (hsource : firstFault s (sourceWords s c r base flags) = none)
    (hecho : regionEcho flags = true) : (stored s (liveAddr s (2559 + 8 * r))).bad = false := by
  unfold sourceWords at hsource
  rw [if_pos hecho] at hsource
  exact (firstFault_cons_eq_none.mp hsource).1

/-- A governed circuit that is not parked and of which no front word is faulted reads the words of its region for the level
that its source gives it, or for a free value. -/
theorem compose_reads_region (hs : s.safeMode = false) (h : governing s c = .ok (some (r, base)))
    (hfront : firstFault s (frontWords s c r base) = none)
    (hpark : regionPark (stored s (liveAddr s (2557 + 8 * r))).val = false) :
    let flags := (stored s (liveAddr s (2557 + 8 * r))).val
    ∃ v, (∀ v', SourceGives s c r base flags v' → v' = v) ∧
      ReadsWords s (regionWords s r (regionCurve flags) v) (compose s c period) := by
  intro flags
  obtain ⟨hflags, hsource⟩ := frontWords_sound hfront hpark
  obtain ⟨pv, hpv⟩ := (readsWords_patchSource hs flags).2 hsource
  refine ⟨(patchedValue s pv).level, fun v' hv => ?_, ?_⟩
  · obtain rfl : Patched.level v' = pv := Except.ok.inj ((patchSource_of_sourceGives hs hv).symm.trans hpv)
    rfl
  · rw [compose_governed (patchStage_source h (need_eq_ok.mpr (readWord_of_sound hflags)) hpark hpv)]
    exact readsWords_map _ (readsWords_regionStage period r _ _)

/-- The level of a governed circuit that is not parked, where no word is faulted. -/
theorem compose_governed_level {flags response preheat limit : Word} {v u : Nat} (hs : s.safeMode = false)
    (h : governing s c = .ok (some (r, base))) (hflags : readWord s (liveAddr s (2557 + 8 * r)) = some flags)
    (hpark : regionPark flags = false) (hv : SourceGives s c r base flags v)
    (hu : dimmerLaw s (regionCurve flags) v = .ok u) (hr : readWord s (liveAddr s (2562 + 8 * r)) = some response)
    (hp : readWord s (liveAddr s (2560 + 8 * r)) = some preheat) (hl : readWord s (liveAddr s (2561 + 8 * r)) = some limit) :
    compose s c period =
      .ok ⟨floorAndLimit preheat.toNat limit.toNat (slew response.toNat period (previousOutput s c) u), false⟩ := by
  have hstage := patchStage_source h (need_eq_ok.mpr hflags) hpark (patchSource_of_sourceGives hs hv)
  have hregion : regionStage s c period r (regionCurve flags) v = _ :=
    regionStage_eq hu (need_eq_ok.mpr hr) (need_eq_ok.mpr hp) (need_eq_ok.mpr hl)
  rw [compose_governed hstage]
  exact congrArg (· >>= _) hregion

/-- The dimmer law as the spec states it (R115, R116): the level itself, or between two points of the curve. -/
theorem dimmerLaw_of_points {curve v u : Nat} (h : curve = 0 ∧ u = v ∨ 1 ≤ curve ∧ ∃ y0 y1,
      readWord s (0x3000 + 33 * curve + v / 2048) = some y0 ∧ readWord s (0x3000 + 33 * curve + v / 2048 + 1) = some y1 ∧
        (y0.toNat ≤ y1.toNat ∧ u = y0.toNat + (y1.toNat - y0.toNat) * (v % 2048) / 2048 ∨
          y1.toNat < y0.toNat ∧ u = y0.toNat - (y0.toNat - y1.toNat) * (v % 2048) / 2048)) :
    dimmerLaw s curve v = .ok u := by
  rcases h with ⟨rfl, rfl⟩ | ⟨hcurve, y0, y1, h0, h1, ⟨hle, rfl⟩ | ⟨hlt, rfl⟩⟩
  · rfl
  · rw [dimmerLaw_curve hcurve h0 h1, curveBetween, if_pos hle]
  · rw [dimmerLaw_curve hcurve h0 h1, curveBetween, if_neg (by omega)]

theorem slew_word (response : Word) (period prev u : Nat) : slew response.toNat period prev u =
    if response = 0 then u
    else min (min 65535 (prev + min 65535 (response.toNat * period))) (max (prev - min 65535 (response.toNat * period)) u) := by
  have hzero : response.toNat = 0 ↔ response = 0 := by rw [BitVec.toNat_eq]; rfl
  simp only [slew, hzero]

end Governed

/-! ## The obligation -/

/-- Settles O41: the search comes to a region where it passes all before it, and each stage reads its words in the order of
R121, so that the first faulted one ends the composition. -/
theorem circuitFollowsRegionAndPatch : Obligations.CircuitFollowsRegionAndPatch := by
  intro s c period hs live covered passed scaled at_ word firstFault channelWords patchWords patched
  refine ⟨fun r hlo hhi hpassed => ?_, fun hpassed => ?_, fun hnone => ?_, fun a herror => ?_, fun r base hgov => ?_,
    fun r base flags hgov hflags => ?_⟩
  · obtain ⟨hcovers, hcount, hbase⟩ := governing_at hs hlo hhi hpassed
    refine ⟨fun ⟨n, b, hn, hb, hc⟩ => ⟨b, hb, hcovers n b (need_eq_ok.mpr hn) (need_eq_ok.mpr hb) hc⟩, fun hn => ?_,
      fun n hn hnz hb => ?_⟩
    · rw [Nat.add_assoc]
      exact hcount _ (need_eq_error.mpr ⟨hn, rfl⟩)
    · rw [Nat.add_assoc]
      exact hbase n _ (need_eq_ok.mpr hn) hnz (need_eq_error.mpr ⟨hb, rfl⟩)
  · exact governing_eq_searchRegions hs (by omega) le_rfl fun q hq hlt => hpassed q hq (by omega)
  · obtain ⟨hprotected, hlevel, hfaults, hcompletes⟩ := compose_of_ungoverned (period := period) hs hnone
    exact ⟨hprotected, hlevel, hfaults, hcompletes⟩
  · exact ⟨by rw [protectedCircuit, herror]; rfl, compose_of_patchStage_error (patchStage_error herror)⟩
  · refine ⟨fun hflags => ?_, fun a hfault => ?_, fun hfront hpark => ?_⟩
    · exact protectedCircuit_of_fault hgov hflags
    · exact compose_of_patchStage_error ((readsWords_patchStage hs hgov).1 a hfault)
    · obtain ⟨v, hunique, hfaults, hcompletes⟩ := compose_reads_region (period := period) hs hgov hfront hpark
      obtain ⟨-, hsource⟩ := frontWords_sound hfront hpark
      refine ⟨v, fun v' hv => hunique v' ?_, hfaults, hcompletes⟩
      exact hv.imp_right fun ⟨hecho, hv⟩ => ⟨hecho, _, readWord_of_sound (echoBase_sound hsource hecho), hv⟩
  · refine ⟨protectedCircuit_of_flags hgov hflags, fun park hpark hlevel => ?_,
      fun v u response preheat limit hpark hv hu hr hp hl => ?_⟩
    · exact compose_parked hgov (need_eq_ok.mpr hflags) hpark (need_eq_ok.mpr hlevel)
    · intro delta slewed
      rw [compose_governed_level hs hgov hflags hpark hv (dimmerLaw_of_points hu) hr hp hl, slew_word]
      rfl

end Sys2Proof.Machine
end

section
/-! What each address of the table space reads as (R106, R107, R137, R139, R140, R149, R155, R173), and READ and INDEX. -/

namespace Sys2Proof.Machine

/-! ## A read by its place -/

theorem placeOf_past_liveWindow {a : Nat} (h : 0x4A40 ≤ a) : placeOf a =
    if 0x100000 ≤ a ∧ a ≤ 0x113742 then .bank .b0 (a - 0x100000)
    else if 0x140000 ≤ a ∧ a ≤ 0x153742 then .bank .b1 (a - 0x140000) else .unmapped := by
  unfold placeOf
  iterate 2 rw [if_neg (by omega)]
  rw [dif_neg (by omega)]
  iterate 3 rw [if_neg (by omega)]

theorem placeOf_bankBase (b : Bank) {off : Nat} (h : off < 79683) : placeOf (bankBase b + off) = .bank b off := by
  cases b with
  | b0 =>
    show placeOf (0x100000 + off) = _
    rw [placeOf_past_liveWindow (by omega), if_pos (by omega), Nat.add_sub_cancel_left]
  | b1 =>
    show placeOf (0x140000 + off) = _
    rw [placeOf_past_liveWindow (by omega), if_neg (by omega), if_pos (by omega), Nat.add_sub_cancel_left]

section Reads

variable {s : State}

/-- A retained word reads as it is stored, and as a fault where its parity is bad. -/
theorem readRetained_spec {a word : Nat} (h : readTable s a = readRetained s word) :
    (readWord s word = none → readTable s a = .fault word) ∧ ∀ w, readWord s word = some w → readTable s a = .value w := by
  rw [h, readRetained]
  exact ⟨fun hw => by rw [hw], fun w hw => by rw [hw]⟩

theorem readTable_global {i : Nat} (h : i < 28) : readTable s i = readRetained s i := by
  rw [readTable, placeOf_global h]

theorem readTable_selection : readTable s 0x2100 = readRetained s 0x2100 := rfl

theorem readTable_playbackSetting (p : PlaybackNo) {i : Nat} (h : i < 5) :
    readTable s (playbackAddr p i) = readRetained s (playbackAddr p i) := by
  rw [readTable, placeOf_playbackAddr p (by omega)]
  exact if_pos h

theorem readTable_playbackState (p : PlaybackNo) {i : Nat} (hlo : 5 ≤ i) (hhi : i < 16) :
    readTable s (playbackAddr p i) = .value (playbackWord (playbackAt s p) i) := by
  rw [readTable, placeOf_playbackAddr p hhi]
  exact if_neg (by omega)

theorem readTable_curve {g i : Nat} (hlo : 1 ≤ g) (hhi : g ≤ 7) (hi : i < 33) :
    readTable s (curveAddr g i) = readRetained s (curveAddr g i) := by
  rw [readTable, placeOf_curveAddr hhi hi]
  exact if_neg (by omega)

theorem readTable_fixedCurve {i : Nat} (hi : i < 33) : readTable s (0x3000 + i) = .value (wordOf (linearPoint i)) := by
  have hplace : placeOf (0x3000 + i) = .curve 0 i := by
    rw [show 0x3000 + i = curveAddr 0 i by unfold curveAddr; omega, placeOf_curveAddr (by omega) hi]
  rw [readTable, hplace]
  rfl

theorem readTable_liveWindow {i : Nat} (hi : i < 2624) : readTable s (0x4000 + i) =
    if s.safeMode then .value (safeWord (i + 3)) else readRetained s (bankBase s.active + (i + 3)) := by
  rw [readTable, placeOf_liveWindow (by omega), Nat.add_sub_cancel_left]

theorem readTable_bank (b : Bank) {off : Nat} (h : off < 79683) : readTable s (bankBase b + off) =
    if isActive s b ∧ isTableOff off then .value (shadowWord s off) else readRetained s (bankBase b + off) := by
  rw [readTable, placeOf_bankBase b h]

theorem isTableOff_iff {off : Nat} : isTableOff off = true ↔ 3 ≤ off ∧ off < 2627 := by simp [isTableOff]

theorem isActive_iff {b : Bank} : isActive s b = true ↔ s.safeMode = false ∧ b = s.active := by simp [isActive]

/-- A word of a bank outside the active bank's tables. -/
theorem readTable_bankRetained (b : Bank) {off : Nat} (hoff : off < 79683)
    (h : s.safeMode = true ∨ b ≠ s.active ∨ off < 3 ∨ 2627 ≤ off) :
    readTable s (bankBase b + off) = readRetained s (bankBase b + off) := by
  rw [readTable_bank b hoff, if_neg]
  rw [isActive_iff, isTableOff_iff]
  rintro ⟨⟨hsafe, hactive⟩, hlo, hhi⟩
  rcases h with h | h | h | h
  · rw [h] at hsafe; cases hsafe
  · exact h hactive
  · omega
  · omega

/-- A word of the active bank's tables reads as the shadow holds it (R149). -/
theorem readTable_shadow (hs : s.safeMode = false) {off : Nat} (hlo : 3 ≤ off) (hhi : off < 2627) :
    readTable s (bankBase s.active + off) = .value (shadowWord s off) := by
  rw [readTable_bank _ (by omega), if_pos ⟨isActive_iff.mpr ⟨hs, rfl⟩, isTableOff_iff.mpr ⟨hlo, hhi⟩⟩]

theorem readTable_live (hs : s.safeMode = false) {off : Nat} (hlo : 3 ≤ off) (hhi : off < 2627) :
    readTable s (0x4000 + (off - 3)) = readRetained s (bankBase s.active + off) := by
  rw [readTable_liveWindow (by omega), if_neg (by simp [hs]), Nat.sub_add_cancel hlo]

theorem readTable_safe (hs : s.safeMode = true) {i : Nat} (hi : i < 2624) :
    readTable s (0x4000 + i) = .value (safeWord (i + 3)) := by
  rw [readTable_liveWindow hi, if_pos hs]

theorem readTable_unmapped {a : Nat} (h : placeOf a = .unmapped) : readTable s a = .unmapped := by
  rw [readTable, h]

/-! ## The fixed tables of safe mode (R106, R107) -/

theorem safeWord_channel {i : Nat} (h : i < 512) : safeWord (i + 3) = 0 := if_pos (by omega)

theorem safeWord_patch {c j : Nat} (hlo : 1 ≤ c) (hhi : c ≤ 1024) (hj : j < 2) :
    safeWord (513 + 2 * c + j) = if c ≤ 512 then (if j = 0 then wordOf c else 255) else 0 := by
  have hcircuit : (513 + 2 * c + j - 515) / 2 + 1 = c := by omega
  have hoffset : (513 + 2 * c + j - 515) % 2 = j := by omega
  rw [safeWord, if_neg (by omega), if_pos (by omega), hcircuit, hoffset]
  by_cases hc : c ≤ 512
  · exact (if_neg (by omega)).trans (if_pos hc).symm
  · exact (if_pos (by omega)).trans (if_neg hc).symm

theorem safeWord_region {r j : Nat} (hlo : 1 ≤ r) (hj : j < 8) : safeWord (2555 + 8 * r + j) = if j = 0 then 1 else 0 := by
  have hoffset : (2555 + 8 * r + j - 2563) % 8 = j := by omega
  rw [safeWord, if_neg (by omega), if_neg (by omega), hoffset]

theorem readTable_safeChannel (hs : s.safeMode = true) {i : Nat} (hi : i < 512) : readTable s (0x4000 + i) = .value 0 := by
  rw [readTable_safe hs (by omega), safeWord_channel hi]

theorem readTable_safePatch (hs : s.safeMode = true) {c j : Nat} (hlo : 1 ≤ c) (hhi : c ≤ 1024) (hj : j < 2) :
    readTable s (0x4000 + (510 + j) + 2 * c) = .value (if c ≤ 512 then (if j = 0 then wordOf c else 255) else 0) := by
  rw [Nat.add_assoc, readTable_safe hs (by omega), ← safeWord_patch hlo hhi hj,
    show 510 + j + 2 * c + 3 = 513 + 2 * c + j by omega]

theorem readTable_safeRegion (hs : s.safeMode = true) {r j : Nat} (hlo : 1 ≤ r) (hhi : r ≤ 8) (hj : j < 8) :
    readTable s (0x4000 + 2552 + 8 * r + j) = .value (if j = 0 then 1 else 0) := by
  rw [show 0x4000 + 2552 + 8 * r + j = 0x4000 + (2552 + 8 * r + j) by omega, readTable_safe hs (by omega),
    ← safeWord_region hlo hj, show 2552 + 8 * r + j + 3 = 2555 + 8 * r + j by omega]

end Reads

/-! ## The status words (R140, 12_formats.md) -/

section Status

variable {s : State}

theorem readTable_status {i : Nat} {w : Word} (h : (statusWords s).getD i 0 = w) (hi : i < 74) :
    readTable s (0x1000 + i) = .value w := by
  rw [readTable, placeOf_status (by omega), Nat.add_sub_cancel_left]
  exact congrArg ReadResult.value h

theorem statusWords_linkState (x : Link) :
    (statusWords s).getD (if x = .a then 0 else 1) 0 = wordOf (linkStateCode (linkOf s x).state) := by
  cases x <;> rfl

/-- The nine counters of a link stand from offset 2 or 11. -/
theorem statusWords_counter (x : Link) {i : Nat} (hi : i < 9) :
    (statusWords s).getD ((if x = .a then 2 else 11) + i) 0 = wordOf ((counterList (linkOf s x).counters).getD i 0) := by
  cases x <;> interval_cases i <;> rfl

theorem statusWords_late (k : LineNo) : (statusWords s).getD (20 + k.val) 0 = wordOf (lineAt s k).late := by
  fin_cases k <;> rfl

/-- The entries of the fault list stand in pairs from offset 41. -/
theorem statusWords_fault {i : Nat} (hi : i < 16) :
    (statusWords s).getD (41 + 2 * i) 0 = upperWord (s.faultList.getD i 0) ∧
      (statusWords s).getD (42 + 2 * i) 0 = wordOf (s.faultList.getD i 0) := by
  interval_cases i <;> exact ⟨rfl, rfl⟩

theorem wordOf_linkCode (x : Link) : wordOf (linkCode x) = if x = .a then 0 else 1 := by cases x <;> rfl

theorem wordOf_bankCode (b : Bank) : wordOf (bankCode b) = if b = .b0 then 0 else 1 := by cases b <;> rfl

/-- The progress of the slot as long as 24 bits hold it (R155, log 24). -/
theorem slotProgress_eq {slot : Slot} {n : Nat}
    (h : (slot = .empty ∧ n = 0) ∨ (∃ src dst count, slot = .copy src dst count n) ∨
      ∃ b pass stale, slot = .verify b pass stale n) (hn : n < 0x1000000) : slotProgress slot = n := by
  rcases h with ⟨rfl, rfl⟩ | ⟨src, dst, count, rfl⟩ | ⟨b, pass, stale, rfl⟩
  · rfl
  · exact count24_of_lt hn
  · exact count24_of_lt hn

/-- The state words of a playback past its cue's follow are 0 (R55). -/
theorem playbackWord_past {pb : Playback} {i : Nat} (hlo : 11 ≤ i) : playbackWord pb i = 0 := by
  unfold playbackWord
  split
  case h_7 => rfl
  all_goals omega

end Status

/-! ## READ (R139) -/

section Read

variable {s : State}

/-- What ends a READ that returns fewer words than it asks for. -/
def ReadEnds (s : State) (a : Nat) (r : Result × Option Nat) : Prop :=
  (readTable s a = .unmapped ∧ r = (.unmapped, none)) ∨ ∃ f, readTable s a = .fault f ∧ r = (.fault, some f)

/-- A READ returns the words of consecutive addresses up to the first that has none. -/
theorem readWords_spec (n : Nat) {a : Nat} (ha : a < 0x1000000) :
    let r := readWords s a n
    r.1.length ≤ n ∧ (∀ i < r.1.length, readTable s ((a + i) % 0x1000000) = .value (r.1.getD i 0)) ∧
      (r.1.length = n → r.2 = (.ok, none)) ∧
      (r.1.length < n → ReadEnds s ((a + r.1.length) % 0x1000000) r.2) := by
  induction n generalizing a with
  | zero => simp [readWords]
  | succ n ih =>
    have hfirst : (a + 0) % 0x1000000 = a := by omega
    cases hread : readTable s a with
    | unmapped => simp [readWords, hread, ReadEnds, Nat.mod_eq_of_lt ha]
    | fault f => simp [readWords, hread, ReadEnds, Nat.mod_eq_of_lt ha]
    | value w =>
      obtain ⟨hle, hwords, hall, hend⟩ := ih (a := (a + 1) % 0x1000000) (Nat.mod_lt _ (by decide))
      have shift (i : Nat) : ((a + 1) % 0x1000000 + i) % 0x1000000 = (a + (i + 1)) % 0x1000000 := by omega
      simp only [shift] at hwords hend
      simp only [readWords, hread, List.length_cons, Nat.add_le_add_iff_right, Nat.add_right_cancel_iff,
        Nat.add_lt_add_iff_right]
      refine ⟨hle, fun i hi => ?_, hall, hend⟩
      cases i with
      | zero => rw [hfirst, List.getD_cons_zero, hread]
      | succ i => exact hwords i (by omega)

theorem exec_index {r : Req} (h : taken s r) (addr : Addr) : exec (.index r addr) s =
    .next (answered { s with tableIndex := s.tableIndex.put r.link addr.toNat } r 0x01 .ok []) :=
  congrArg Host.Outcome.next (takeRequest_either h rfl rfl)

theorem exec_read {r : Req} (h : taken s r) {n : Word} (hlo : 1 ≤ n.toNat) (hhi : n.toNat ≤ 250) : exec (.read r n) s =
    .next (answered (answerRead s r.link n.toNat).state r 0x03 (answerRead s r.link n.toNat).result
      (answerRead s r.link n.toNat).data) :=
  congrArg Host.Outcome.next (takeRequest_either h (by simp [Request.inRange, hlo, hhi]) rfl)

theorem answerRead_sound {x : Link} {n : Nat} {ws : List Word} {res : Result}
    (h : readWords s (s.tableIndex.get x) n = (ws, res, none)) : answerRead s x n =
      ⟨{ s with tableIndex := s.tableIndex.put x ((s.tableIndex.get x + ws.length) % 0x1000000) }, res,
        ws.flatMap wordBytes⟩ := by
  simp only [answerRead, h]

theorem answerRead_fault {x : Link} {n f : Nat} {ws : List Word} {res : Result}
    (h : readWords s (s.tableIndex.get x) n = (ws, res, some f)) : answerRead s x n =
      ⟨offerFault { s with tableIndex := s.tableIndex.put x ((s.tableIndex.get x + ws.length) % 0x1000000) } f, res,
        ws.flatMap wordBytes⟩ := by
  simp only [answerRead, h]

/-- How a READ ends: after its last word, at an address that is not mapped, or at a fault. -/
theorem readWords_cases (n : Nat) {a : Nat} (ha : a < 0x1000000) :
    ∃ ws, ws.length ≤ n ∧ (∀ i < ws.length, readTable s ((a + i) % 0x1000000) = .value (ws.getD i 0)) ∧
      ((ws.length = n ∧ readWords s a n = (ws, .ok, none)) ∨
        (ws.length < n ∧ readTable s ((a + ws.length) % 0x1000000) = .unmapped ∧ readWords s a n = (ws, .unmapped, none)) ∨
        (ws.length < n ∧ ∃ f, readTable s ((a + ws.length) % 0x1000000) = .fault f ∧
          readWords s a n = (ws, .fault, some f))) := by
  obtain ⟨hle, hwords, hall, hend⟩ := readWords_spec (s := s) n ha
  refine ⟨(readWords s a n).1, hle, hwords, ?_⟩
  rcases hle.eq_or_lt with heq | hlt
  · exact .inl ⟨heq, Prod.ext rfl (hall heq)⟩
  · rcases hend hlt with ⟨hread, hr⟩ | ⟨f, hread, hr⟩
    · exact .inr (.inl ⟨hlt, hread, Prod.ext rfl hr⟩)
    · exact .inr (.inr ⟨hlt, f, hread, Prod.ext rfl hr⟩)

end Read

/-- Settles O20: each address by its place, and a READ by the recursion over its words. -/
theorem indexAndRead : Obligations.IndexAndRead := by
  intro s reads retainedAt flag upper status
  refine ⟨fun i hi => readRetained_spec (readTable_global hi), readRetained_spec readTable_selection,
    fun p i hi => readRetained_spec (readTable_playbackSetting p hi),
    fun g i hlo hhi hi => readRetained_spec (readTable_curve hlo hhi hi), fun i hi => readTable_fixedCurve hi,
    fun b off hoff h => readRetained_spec (readTable_bankRetained b hoff h),
    fun hs off hlo hhi => ⟨readTable_shadow hs hlo hhi, readRetained_spec (readTable_live hs hlo hhi)⟩,
    fun hs => ⟨fun i hi => readTable_safeChannel hs hi,
      fun c hlo hhi => ⟨readTable_safePatch hs hlo hhi Nat.zero_lt_two, readTable_safePatch hs hlo hhi Nat.one_lt_two⟩,
      fun r j hlo hhi hj => readTable_safeRegion hs hlo hhi hj⟩,
    fun x => ?_, fun k => readTable_status (statusWords_late k) (by omega),
    readTable_status (wordOf_linkCode _) (by omega), readTable_status ?source (by omega), readTable_status rfl (by omega),
    readTable_status rfl (by omega), readTable_status ?slot (by omega), fun n hslot hn => ?progress,
    readTable_status ?verify (by omega), readTable_status rfl (by omega), readTable_status rfl (by omega),
    readTable_status rfl (by omega), readTable_status rfl (by omega), readTable_status ?bank (by omega),
    readTable_status rfl (by omega), readTable_status rfl (by omega), readTable_status rfl (by omega),
    readTable_status rfl (by omega),
    fun i hi => ⟨readTable_status (statusWords_fault hi).1 (by omega), readTable_status (statusWords_fault hi).2 (by omega)⟩,
    readTable_status rfl (by omega), fun p => ?_, fun a ha => readTable_unmapped (placeOf_unmapped ha),
    fun r h => ⟨fun addr => exec_index h addr, fun n hlo hhi => ?_⟩⟩
  case source => show wordOf (sourceStateCode s.arb.source) = _; cases s.arb.source <;> rfl
  case slot => show wordOf (slotCode s.slot) = _; cases s.slot <;> rfl
  case verify => show wordOf (opResultCode s.lastVerify) = _; cases s.lastVerify <;> rfl
  case bank => show (if s.safeMode then 0xFFFF else wordOf (bankCode s.active)) = _; rw [wordOf_bankCode]
  case progress =>
    have hprogress := slotProgress_eq hslot hn
    exact ⟨readTable_status (congrArg upperWord hprogress) (by omega), readTable_status (congrArg wordOf hprogress) (by omega)⟩
  · have counter {i : Nat} (hi : i < 9) := readTable_status (statusWords_counter (s := s) x hi) (by split <;> omega)
    refine ⟨readTable_status ((statusWords_linkState x).trans ?_) (by split <;> omega), counter (i := 0) (by omega),
      counter (i := 1) (by omega), counter (i := 2) (by omega), counter (i := 3) (by omega), counter (i := 4) (by omega),
      counter (i := 5) (by omega), counter (i := 6) (by omega), counter (i := 7) (by omega), counter (i := 8) (by omega)⟩
    cases (linkOf s x).state <;> rfl
  · intro pb word phase
    have state {i : Nat} {w : Word} (hlo : 5 ≤ i) (hhi : i < 16) (h : playbackWord pb i = w) : word i w :=
      (readTable_playbackState p hlo hhi).trans (congrArg _ h)
    have phaseWord (f : FadePart) : wordOf (partPhaseCode f.phase) = phase f := by rcases f with ⟨_ | _ | _⟩ <;> rfl
    refine ⟨state (by omega) (by omega) ?_, state (by omega) (by omega) ?_, state (by omega) (by omega) rfl,
      state (by omega) (by omega) (phaseWord pb.up), state (by omega) (by omega) (phaseWord pb.down),
      state (by omega) (by omega) ?_, fun i hlo hhi => state (by omega) hhi (playbackWord_past hlo)⟩
    · show wordOf (playbackStateCode pb.state) = _
      cases pb.state <;> rfl
    · show wordOf ((pb.cue.map (·.number)).getD 0) = _
      cases pb.cue <;> rfl
    · show wordOf (pb.follow.getD 0) = _
      cases pb.follow <;> rfl
  · intro a at_ ha
    obtain ⟨ws, hle, hwords, ⟨hlen, hr⟩ | ⟨hlt, hread, hr⟩ | ⟨hlt, f, hread, hr⟩⟩ := readWords_cases (s := s) n.toNat ha
    · refine ⟨ws, .ok, _, by rw [exec_read h hlo hhi, answerRead_sound hr], hle, hwords, iff_of_true rfl hlen,
        fun hlt => absurd hlen hlt.ne, fun _ => rfl⟩
    · refine ⟨ws, .unmapped, _, by rw [exec_read h hlo hhi, answerRead_sound hr], hle, hwords,
        iff_of_false nofun hlt.ne, fun _ => .inl ⟨hread, rfl⟩, fun _ => rfl⟩
    · exact ⟨ws, .fault, _, by rw [exec_read h hlo hhi, answerRead_fault hr], hle, hwords,
        iff_of_false nofun hlt.ne, fun _ => .inr ⟨f, hread, rfl, rfl⟩, fun hne => absurd rfl hne⟩

end Sys2Proof.Machine
end

section
/-! The bounds of a governed circuit's level (R117 to R120): the slew allowance around the previous output, then the preheat, then
the limit. -/

namespace Sys2Proof.Machine

/-! ## Slew, preheat and limit as bounds (R118, R119) -/

theorem floorAndLimit_bounds (preheat limit u : Nat) :
    min preheat limit ≤ floorAndLimit preheat limit u ∧ floorAndLimit preheat limit u ≤ limit := by
  unfold floorAndLimit; omega

/-- Preheat and limit either leave a level as it is or put one of themselves in its place. -/
theorem floorAndLimit_eq_of_ne {preheat limit u : Nat} (hp : floorAndLimit preheat limit u ≠ preheat)
    (hl : floorAndLimit preheat limit u ≠ limit) : floorAndLimit preheat limit u = u := by
  unfold floorAndLimit at *; omega

/-- Slew by a response other than 0 ends within the allowance of a previous output that is a level. -/
theorem slew_within {response : Word} {period prev : Nat} (hr : response ≠ 0) (hprev : prev ≤ 65535) (u : Nat) :
    slew response.toNat period prev u ≤ prev + min 65535 (response.toNat * period) ∧
      prev ≤ slew response.toNat period prev u + min 65535 (response.toNat * period) := by
  rw [slew_word, if_neg hr]
  generalize min 65535 (response.toNat * period) = delta
  omega

/-! ## A completed composition of a governed circuit -/

section Completed

variable {s : State} {c period r base : Nat}

theorem exists_of_bind_eq_ok {ε α β : Type} {x : Except ε α} {f : α → Except ε β} {b : β} (h : x >>= f = .ok b) :
    ∃ a, x = .ok a ∧ f a = .ok b := by
  cases x with
  | error e => nomatch h
  | ok a => exact ⟨a, rfl, h⟩

/-- A region stage that completes has taken some level of the dimmer law through slew, preheat and limit. -/
theorem regionStage_eq_ok {curve v level : Nat} {response preheat limit : Word} (hp : needLive s (regionOff r + 5) = .ok preheat)
    (hl : needLive s (regionOff r + 6) = .ok limit) (hr : needLive s (regionOff r + 7) = .ok response)
    (h : regionStage s c period r curve v = .ok level) :
    ∃ x, level = floorAndLimit preheat.toNat limit.toNat (slew response.toNat period (previousOutput s c) x) := by
  obtain ⟨x, hx, -⟩ := exists_of_bind_eq_ok h
  rw [needLive_region] at hp hl hr
  exact ⟨x, Except.ok.inj (h.symm.trans (regionStage_eq hx hr hp hl))⟩

/-- A governed circuit that is neither parked nor held takes its level from its region's stage. -/
theorem compose_eq_ok_of_governed {flags : Word} {u : Composed} (hgov : governing s c = .ok (some (r, base)))
    (hflags : needLive s (regionOff r + 2) = .ok flags) (hpark : regionPark flags = false) (h : compose s c period = .ok u) :
    ∃ v, regionStage s c period r (regionCurve flags) v = .ok u.level := by
  obtain ⟨stage, hstage, -⟩ := exists_of_bind_eq_ok h
  have hsource := hstage
  rw [patchStage_governed hgov, hflags, ok_bind, if_neg (by simp [hpark])] at hsource
  obtain ⟨v, -, hv⟩ := exists_of_bind_eq_ok hsource
  cases hv
  rw [compose_governed hstage] at h
  obtain ⟨level, hlevel, hu⟩ := exists_of_bind_eq_ok h
  cases hu
  exact ⟨_, hlevel⟩

end Completed

/-! ## The obligation -/

/-- Settles O42: a composition that completes ends in preheat and limit applied to a slewed level. -/
theorem regionBoundsLevel : Obligations.RegionBoundsLevel := by
  intro s c period r base flags preheat limit response u hgov hflags hpark hp hl hr hu
  obtain ⟨v, hstage⟩ := compose_eq_ok_of_governed hgov hflags hpark hu
  obtain ⟨x, hlevel⟩ := regionStage_eq_ok hp hl hr hstage
  rw [hlevel]
  obtain ⟨hfloor, hlimit⟩ := floorAndLimit_bounds preheat.toNat limit.toNat _
  refine ⟨hfloor, hlimit, fun hresponse hnePreheat hneLimit hprev => ?_⟩
  rw [floorAndLimit_eq_of_ne hnePreheat hneLimit]
  exact slew_within hresponse hprev x

end Sys2Proof.Machine
end

section
/-! The output lines (R123 to R133): the enable's WRITE by the line's transmit state, the period timer, the circuits of a frame,
and its end. -/

namespace Sys2Proof.Machine

/-! ## The composition and sending of a circuit (R127 to R130) -/

theorem inFrame_iff {l : Line} : inFrame l = true ↔ l.tx = .sending ∨ l.tx = .startPending ∨ l.tx = .stopping := by
  simp [inFrame, or_assoc]

theorem circuitDue_iff {l : Line} :
    circuitDue l = true ↔ (l.tx = .sending ∨ l.tx = .startPending ∨ l.tx = .stopping) ∧ l.next < l.count := by
  simp [circuitDue, inFrame_iff]

/-- A level that fits 16 bits is sent as one rounded byte or as its high and low byte (R130). -/
theorem encodeLevel_of_le {u : Nat} (m : LineMode) (h : u ≤ 65535) : encodeLevel m u =
    if m = .coarse then [BitVec.ofNat 8 ((u + 128) / 257)] else [BitVec.ofNat 8 (u / 256), BitVec.ofNat 8 u] := by
  have hword : (wordOf u).toNat = u := (BitVec.toNat_ofNat ..).trans (Nat.mod_eq_of_lt (by omega))
  cases m with
  | coarse => rfl
  | fine => simp [encodeLevel, wordBytes, hword, byteOf]

/-- A line with its next circuit sent at level `u` (R127, R130). -/
def circuitSent (l : Line) (u : Nat) : Line :=
  { l with next := l.next + 1, sent := l.sent ++ encodeLevel l.mode u }

theorem composeNext_due {s : State} {k : LineNo} (h : circuitDue (lineAt s k) = true) : composeNext s k =
    setLine (composeCircuit s (nextCircuit k (lineAt s k)) (lineAt s k).period).1 k
      (circuitSent (lineAt s k) (composeCircuit s (nextCircuit k (lineAt s k)) (lineAt s k).period).2) :=
  if_pos h

theorem composeNext_not_due {s : State} {k : LineNo} (h : ¬ circuitDue (lineAt s k) = true) : composeNext s k = s :=
  if_neg h

theorem composeCircuit_ok {s : State} {c period : Nat} {u : Composed} (h : compose s c period = .ok u) :
    ∃ n, composeCircuit s c period =
      ({ s with prevOut := tset zeroLevel s.prevOut c u.level, freeDraws := n }, u.level) := by
  obtain ⟨n, -, ⟨v, hv, heq⟩ | ⟨a, ha, -⟩⟩ := composeCircuit_cases s c period
  · cases h.symm.trans hv
    exact ⟨n, heq⟩
  · cases h.symm.trans ha

theorem composeCircuit_error {s : State} {c period a : Nat} (h : compose s c period = .error a) :
    ∃ n, composeCircuit s c period = ({ offerFault s a with freeDraws := n }, previousOutput s c) := by
  obtain ⟨n, -, ⟨u, hu, -⟩ | ⟨b, hb, heq⟩⟩ := composeCircuit_cases s c period
  · cases h.symm.trans hu
  · cases h.symm.trans hb
    exact ⟨n, heq⟩

/-- Settles O40, by how the circuit's composition ends. -/
theorem circuitIsComposedAndSent : Obligations.CircuitIsComposedAndSent := by
  intro s k l c sending bytes
  have due (hs : sending) (hn : l.next < l.count) : exec (.circuitComposition k) s =
      .next (setLine (composeCircuit s c l.period).1 k (circuitSent l (composeCircuit s c l.period).2)) :=
    congrArg _ (composeNext_due (circuitDue_iff.mpr ⟨hs, hn⟩))
  have sent {u : Nat} (hu : u ≤ 65535) :
      circuitSent l u = { l with next := l.next + 1, sent := l.sent ++ bytes u } := by
    rw [circuitSent, encodeLevel_of_le l.mode hu]
  refine ⟨fun hs hn u hu hle => ?_, fun hs hn a ha hle => ?_, fun h => ?_⟩
  · obtain ⟨n, hcomposed⟩ := composeCircuit_ok hu
    refine ⟨_, due hs hn, ?_⟩
    rw [hcomposed, lineAt_setLine_self]
    exact ⟨tget_tset_self _ _ _ _, fun d hd => tget_tset_of_ne _ _ _ hd, sent hle, rfl⟩
  · obtain ⟨n, hcomposed⟩ := composeCircuit_error ha
    exact ⟨n, by rw [due hs hn, hcomposed, sent hle]⟩
  · refine congrArg _ (composeNext_not_due fun hdue => ?_)
    obtain ⟨hs, hn⟩ := circuitDue_iff.mp hdue
    exact h.elim (fun hidle => hidle hs) hn.not_ge

/-! ## The WRITE of a line's enable (R123, R133) -/

section Enable

variable {s : State} {k : LineNo} {v : Word}

theorem globalCheck_lineAddr (k : LineNo) (v : Word) :
    globalCheck (lineAddr k) v = some (if v = 0 then 0 else 1) := by
  have hline : 12 ≤ lineAddr k ∧ lineAddr k % 4 = 0 := by simp only [lineAddr]; omega
  rw [globalCheck_line hline.1, if_pos hline.2, clampTo_bit]

/-- The working copies with the enable of line `k` set. -/
def withEnable (w : Working) (k : LineNo) (on : Bool) : Working :=
  { w with lines := w.lines.set k { w.lines[k] with enable := on } }

theorem loadSetting_lineAddr (w : Working) (k : LineNo) (v : Word) :
    loadSetting w (lineAddr k) v = withEnable w k (v != 0) := by
  fin_cases k <;> rfl

/-- A state with the enable of a line taken and the line acting on it. -/
def enableWritten (s : State) (k : LineNo) (v : Word) : State :=
  setLine { rewrite s (lineAddr k) (if v = 0 then 0 else 1) with working := withEnable s.working k (v != 0) } k
    (enableLine (lineAt s k) (v != 0))

theorem enableBit_ne_zero (v : Word) : ((if v = 0 then 0 else 1 : Word) != 0) = (v != 0) := by
  split
  · rename_i h; rw [h]
  · rename_i h; exact (bne_iff_ne.mpr h).symm

theorem takeGlobal_lineAddr (s : State) (k : LineNo) (v : Word) :
    takeGlobal s (lineAddr k) (if v = 0 then 0 else 1) = enableWritten s k v := by
  have hk := k.isLt
  have hplace : (lineAddr k - 12) / 4 = k.val := by simp only [lineAddr]; omega
  have hline : 12 ≤ lineAddr k ∧ lineAddr k < 28 ∧ lineAddr k % 4 = 0 := by simp only [lineAddr]; omega
  unfold takeGlobal enableWritten
  rw [dif_pos hline]
  simp only [hplace, Fin.eta, loadSetting_lineAddr, enableBit_ne_zero]
  rfl

theorem writeWord_lineAddr (s : State) (k : LineNo) (v : Word) :
    writeWord s (lineAddr k) v = .taken (enableWritten s k v) := by
  have hhi : lineAddr k < 28 := by simp only [lineAddr]; omega
  rw [writeWord_global_taken hhi (globalCheck_lineAddr k v), takeGlobal_lineAddr]

theorem takeWordWrite_lineAddr {r : Req} (h : takenFromOwner s r) : takeWordWrite s r (lineAddr k) v =
    answered { enableWritten s k v with tableIndex := s.tableIndex.put r.link (lineAddr k + 1) } r 0x02 .ok [1] :=
  takeWordWrite_quiet h (writeWord_lineAddr s k v) rfl (by simp only [lineAddr]; omega) rfl

theorem stored_enableWritten_self (s : State) (k : LineNo) (v : Word) :
    stored (enableWritten s k v) (lineAddr k) = ⟨if v = 0 then 0 else 1, false⟩ :=
  stored_rewrite_self s _ _

theorem stored_enableWritten_of_ne {a : Nat} (h : a ≠ lineAddr k) : stored (enableWritten s k v) a = stored s a :=
  stored_rewrite_of_ne s _ h

theorem lineSettings_enableWritten_self (s : State) (k : LineNo) (v : Word) :
    lineSettings (enableWritten s k v) k = { lineSettings s k with enable := v != 0 } := by
  simp [lineSettings, enableWritten, withEnable]

theorem lineSettings_enableWritten_of_ne {j : LineNo} (h : j ≠ k) :
    lineSettings (enableWritten s k v) j = lineSettings s j := by
  simp [lineSettings, enableWritten, withEnable, Vector.getElem_set_ne, Fin.val_ne_iff.mpr h.symm]

end Enable

section EnableLine

variable {l : Line}

theorem enableLine_on_silent (h : l.tx = .silent) : enableLine l true = { l with tx := .waiting, timer := 0 } := by
  simp [enableLine, h]

theorem enableLine_on_stopping (h : l.tx = .stopping) : enableLine l true = { l with tx := .sending, timer := 0 } := by
  simp [enableLine, h]

/-- An enable written to a line that is already enabled leaves it as it is. -/
theorem enableLine_on_enabled (h : l.tx = .waiting ∨ l.tx = .sending ∨ l.tx = .startPending) : enableLine l true = l := by
  rcases h with h | h | h <;> simp [enableLine, h]

theorem enableLine_off_waiting (h : l.tx = .waiting) : enableLine l false = { l with tx := .silent } := by
  simp [enableLine, h]

theorem enableLine_off_inFrame (h : l.tx = .sending ∨ l.tx = .startPending) :
    enableLine l false = { l with tx := .stopping } := by
  rcases h with h | h <;> simp [enableLine, h]

/-- A line that is already disabled stays as it is when it is disabled again. -/
theorem enableLine_off_disabled (h : l.tx = .silent ∨ l.tx = .stopping) : enableLine l false = l := by
  rcases h with h | h <;> simp [enableLine, h]

end EnableLine

/-- Settles O26: the word, its working copy, and the line by its transmit state. -/
theorem lineEnableIsWritten : Obligations.LineEnableIsWritten := by
  intro s r k v h a l
  let t : State := { enableWritten s k v with tableIndex := s.tableIndex.put r.link (a + 1) }
  have hline : lineAt t k = enableLine l (v != 0) := lineAt_setLine_self _ _ _
  have enabled (hv : v ≠ 0) : lineAt t k = enableLine l true := by rw [hline, bne_iff_ne.mpr hv]
  have disabled (hv : v = 0) : lineAt t k = enableLine l false := by rw [hline, bne_eq_false_iff_eq.mpr hv]
  refine ⟨t, congrArg _ (takeWordWrite_lineAddr h), stored_enableWritten_self s k v,
    fun b hb => stored_enableWritten_of_ne hb, lineSettings_enableWritten_self s k v,
    fun j hj => lineSettings_enableWritten_of_ne hj, rfl, rfl, fun j hj => lineAt_setLine_of_ne _ _ hj, ?_, ?_, ?_, ?_, ?_, ?_⟩
  · exact fun hv htx => (enabled hv).trans (enableLine_on_silent htx)
  · exact fun hv htx => (enabled hv).trans (enableLine_on_stopping htx)
  · exact fun hv htx => (enabled hv).trans (enableLine_on_enabled htx)
  · exact fun hv htx => (disabled hv).trans (enableLine_off_waiting htx)
  · exact fun hv htx => (disabled hv).trans (enableLine_off_inFrame htx)
  · exact fun hv htx => (disabled hv).trans (enableLine_off_disabled htx)

/-! ## The period timer (R124 to R126) -/

section Timer

variable {s : State} {k : LineNo}

theorem timerRuns_iff {l : Line} : timerRuns l = true ↔ l.tx = .waiting ∨ l.tx = .sending := by
  simp [timerRuns]

theorem periodDue_iff : periodDue s k = true ↔
    ((lineAt s k).tx = .waiting ∨ (lineAt s k).tx = .sending) ∧ (lineSettings s k).period ≤ (lineAt s k).timer + 1 := by
  simp [periodDue, timerRuns_iff]

theorem lineTick_stopped (h : ¬ timerRuns (lineAt s k) = true) : lineTick s k = s := if_neg h

theorem lineTick_counts (h : timerRuns (lineAt s k) = true) (hdue : ¬ periodDue s k = true) :
    lineTick s k = setLine s k { lineAt s k with timer := (lineAt s k).timer + 1 } :=
  (if_pos h).trans (if_neg hdue)

/-- The timer of a WAITING line expires: an on-time frame starts. -/
theorem lineTick_starts (h : (lineAt s k).tx = .waiting) (hdue : periodDue s k = true) :
    lineTick s k = setLine s k (frameStart (lineAt s k) (lineSettings s k) false) := by
  simp [lineTick, timerRuns_iff.mpr (.inl h), hdue, h]

/-- The timer of a line in a frame expires: a start is left pending. -/
theorem lineTick_pends (h : (lineAt s k).tx = .sending) (hdue : periodDue s k = true) :
    lineTick s k = setLine s k { lineAt s k with tx := .startPending, timer := (lineAt s k).timer + 1 } := by
  simp [lineTick, timerRuns_iff.mpr (.inr h), hdue, h]

theorem exec_lineStep (s : State) (k : LineNo) : exec (.lineStep k) s = .next (lineTick s k) := rfl

theorem exec_periodTimerExpiry_not_due (h : ¬ periodDue s k = true) : exec (.periodTimerExpiry k) s = .next s :=
  if_neg h

/-- Where the period timer expires, the two commands are the one step expiry. -/
theorem exec_lineTick_of_due (h : periodDue s k = true) :
    ∀ i ∈ [Instr.lineStep k, Instr.periodTimerExpiry k], exec i s = .next (lineTick s k) := by
  have hexpiry : exec (.periodTimerExpiry k) s = .next (lineTick s k) := if_pos h
  simp [exec_lineStep, hexpiry]

end Timer

/-- The first three bytes of a frame (R126). -/
theorem dimmerHeader_eq (m : LineMode) (n : Nat) :
    dimmerHeader m n = [0xE7, if m = .coarse then 0x50 else 0x51, BitVec.ofNat 8 n] := by
  cases m <;> rfl

/-- Settles O39, by whether the timer runs and whether it expires. -/
theorem lineStepCounts : Obligations.LineStepCounts := by
  intro s k l w
  refine ⟨fun htx => ?_, fun htx hlt => ?_, fun htx hle i hi => ?_, fun htx hle => ⟨l.timer + 1, fun i hi => ?_⟩⟩
  · have hstopped : ¬ (l.tx = .waiting ∨ l.tx = .sending) := by rcases htx with h | h | h <;> simp [h]
    rw [exec_lineStep, lineTick_stopped (mt timerRuns_iff.mp hstopped)]
    exact ⟨rfl, exec_periodTimerExpiry_not_due fun hdue => hstopped (periodDue_iff.mp hdue).1⟩
  · have hnot : ¬ periodDue s k = true := fun hdue => hlt.not_ge (periodDue_iff.mp hdue).2
    rw [exec_lineStep, lineTick_counts (timerRuns_iff.mpr htx) hnot]
    exact ⟨rfl, exec_periodTimerExpiry_not_due hnot⟩
  · have hdue := periodDue_iff.mpr ⟨.inl htx, hle⟩
    rw [exec_lineTick_of_due hdue i hi, lineTick_starts htx hdue, frameStart, dimmerHeader_eq]
    rfl
  · have hdue := periodDue_iff.mpr ⟨.inr htx, hle⟩
    rw [exec_lineTick_of_due hdue i hi, lineTick_pends htx hdue]

/-! ## The end of a frame (R124, R126, R131, R132) -/

section FrameEnd

variable {s : State} {k : LineNo}

theorem frameEndDue_iff {l : Line} :
    frameEndDue l = true ↔ (l.tx = .sending ∨ l.tx = .startPending ∨ l.tx = .stopping) ∧ l.count ≤ l.next := by
  simp [frameEndDue, inFrame_iff]

/-- A line whose frame is ended by its CRC, before its transmit state moves on (R131). -/
def frameDoneLine (l : Line) : Line := { l with last := wholeFrame l, sent := [] }

theorem frameEnd_not_due (h : ¬ frameEndDue (lineAt s k) = true) : frameEnd s k = s := if_neg h

theorem frameEnd_sending (h : (lineAt s k).tx = .sending) (hle : (lineAt s k).count ≤ (lineAt s k).next) :
    frameEnd s k = setLine s k { frameDoneLine (lineAt s k) with tx := .waiting } := by
  simp [frameEnd, frameEndDue_iff.mpr ⟨.inl h, hle⟩, h, frameDoneLine]

theorem frameEnd_stopping (h : (lineAt s k).tx = .stopping) (hle : (lineAt s k).count ≤ (lineAt s k).next) :
    frameEnd s k = setLine s k { frameDoneLine (lineAt s k) with tx := .silent } := by
  simp [frameEnd, frameEndDue_iff.mpr ⟨.inr (.inr h), hle⟩, h, frameDoneLine]

/-- A frame that a start is pending behind is followed by a late frame. -/
theorem frameEnd_startPending (h : (lineAt s k).tx = .startPending) (hle : (lineAt s k).count ≤ (lineAt s k).next) :
    frameEnd s k = setLine s k (frameStart (frameDoneLine (lineAt s k)) (lineSettings s k) true) := by
  simp [frameEnd, frameEndDue_iff.mpr ⟨.inr (.inl h), hle⟩, h, frameDoneLine]

theorem exec_endOfFrame (s : State) (k : LineNo) : exec (.endOfFrame k) s = .next (frameEnd s k) := rfl

end FrameEnd

/-- Settles O45, by the transmit state that the frame ends in. -/
theorem frameEnds : Obligations.FrameEnds := by
  intro s k l w ended
  rw [exec_endOfFrame]
  refine ⟨fun htx hle => ?_, fun htx hle => ?_, fun htx hle => ?_, fun h => congrArg _ (frameEnd_not_due fun hdue => ?_)⟩
  · rw [frameEnd_sending htx hle]; rfl
  · rw [frameEnd_stopping htx hle]; rfl
  · rw [frameEnd_startPending htx hle, frameStart, dimmerHeader_eq]; rfl
  · obtain ⟨hframe, hle⟩ := frameEndDue_iff.mp hdue
    rcases h with h | h | h
    · simp [l, h] at hframe
    · simp [l, h] at hframe
    · exact h.not_ge hle

end Sys2Proof.Machine
end

section
/-! The invariant of the queues and of the return lines (R142, R143, R145) taken apart: the depths of the queues, and the return
lines that are at rest. A frame start brings its own line to rest and disturbs no other, and what can disturb a line (an
offered report, a queued reply, a change of owner) ends with a frame start on it. -/

namespace Sys2Proof.Machine

/-! ## The parts of QueueInv -/

/-- The depths and ranges of QueueInv, with the silence before the end of the power-up check. -/
structure QueueBounds (s : State) : Prop where
  index   : ∀ x, s.tableIndex.get x < 0x1000000
  reports : s.reports.length ≤ 32
  replies : ∀ x, (s.replies.get x).length ≤ 4
  silent  : s.phase ≠ .running → s.replies = ⟨[], []⟩ ∧ s.tx = ⟨none, none⟩

theorem PerLink.get_pair {α : Type} (v : α) (x : Link) : (⟨v, v⟩ : PerLink α).get x = v := by cases x <;> rfl

/-- A return line with nothing waiting that it may send, or in a frame. -/
def AtRest (s : State) (x : Link) : Prop := s.tx.get x = none → s.replies.get x = [] ∧ (s.arb.owner = x → s.reports = [])

theorem queueInv_iff {s : State} : QueueInv s ↔ QueueBounds s ∧ (s.phase = .running → ∀ x, AtRest s x) :=
  ⟨fun ⟨hindex, hreports, hreplies, hsilent, hrest⟩ => ⟨⟨hindex, hreports, hreplies, hsilent⟩, hrest⟩,
    fun ⟨h, hrest⟩ => ⟨h.index, h.reports, h.replies, h.silent, hrest⟩⟩

theorem QueueBounds.running_of_sending {s : State} {x : Link} (h : QueueBounds s) (htx : s.tx.get x ≠ none) :
    s.phase = .running := by
  by_contra hp
  exact htx (by rw [(h.silent hp).2, PerLink.get_pair])

/-! ## A frame start -/

section FrameStart

variable {s : State} {x : Link}

theorem startFrame_reports_le (s : State) (x : Link) : (startFrame s x).reports.length ≤ s.reports.length := by
  rcases startFrame_cases s x with ⟨_, _, -, h⟩ | ⟨_, _, -, -, hr, h⟩ | ⟨-, -, h⟩ <;> rw [h]
  rw [hr]
  exact Nat.le_succ _

theorem startFrame_replies_le (s : State) (x y : Link) :
    ((startFrame s x).replies.get y).length ≤ (s.replies.get y).length := by
  rcases startFrame_cases s x with ⟨_, rest, hr, h⟩ | ⟨_, _, -, -, -, h⟩ | ⟨-, -, h⟩ <;> rw [h]
  by_cases hy : y = x
  · subst hy
    simp [hr]
  · exact (congrArg List.length (PerLink.get_put_of_ne s.replies rest hy)).le

/-- A frame start brings its line to rest. -/
theorem atRest_startFrame_self (s : State) (x : Link) : AtRest (startFrame s x) x := by
  rcases startFrame_cases s x with ⟨_, _, -, h⟩ | ⟨_, _, -, -, -, h⟩ | ⟨hreplies, hreports, h⟩ <;> rw [h] <;> intro htx
  · simp at htx
  · simp at htx
  · exact ⟨hreplies, hreports⟩

/-- A frame start disturbs no other line: it takes from the queues alone. -/
theorem atRest_startFrame {y : Link} (h : AtRest s y) : AtRest (startFrame s x) y := by
  by_cases hy : y = x
  · exact hy ▸ atRest_startFrame_self s x
  · rcases startFrame_cases s x with ⟨_, _, -, he⟩ | ⟨_, _, -, howner, -, he⟩ | ⟨-, -, he⟩ <;> rw [he] <;> intro htx
    · simp only [PerLink.get_put_of_ne _ _ hy] at htx ⊢
      exact h htx
    · simp only [PerLink.get_put_of_ne _ _ hy] at htx ⊢
      exact ⟨(h htx).1, fun ho => absurd (ho.symm.trans howner) hy⟩
    · simp only [PerLink.get_put_of_ne _ _ hy] at htx ⊢
      exact h htx

theorem queueBounds_startFrame (h : QueueBounds s) (hp : s.phase = .running) : QueueBounds (startFrame s x) where
  index := by simpa using h.index
  reports := (startFrame_reports_le s x).trans h.reports
  replies y := (startFrame_replies_le s x y).trans (h.replies y)
  silent hn := absurd (by simpa using hp) hn

/-- At the moments at which an idle transmitter looks for a frame, it comes to rest. -/
theorem startIfIdle_cases (s : State) (x : Link) :
    (s.phase = .running ∧ startIfIdle s x = startFrame s x) ∨
      ((s.phase = .running → s.tx.get x ≠ none) ∧ startIfIdle s x = s) := by
  by_cases h : s.phase = .running ∧ s.tx.get x = none
  · exact .inl ⟨h.1, startIfIdle_of_idle h.1 h.2⟩
  · exact .inr ⟨fun hp htx => h ⟨hp, htx⟩, if_neg h⟩

theorem queueBounds_startIfIdle (h : QueueBounds s) : QueueBounds (startIfIdle s x) := by
  rcases startIfIdle_cases s x with ⟨hp, he⟩ | ⟨-, he⟩ <;> rw [he]
  · exact queueBounds_startFrame h hp
  · exact h

theorem atRest_startIfIdle_self (hp : s.phase = .running) : AtRest (startIfIdle s x) x := by
  rcases startIfIdle_cases s x with ⟨-, he⟩ | ⟨hbusy, he⟩ <;> rw [he]
  · exact atRest_startFrame_self s x
  · exact fun htx => absurd htx (hbusy hp)

theorem atRest_startIfIdle {y : Link} (h : AtRest s y) : AtRest (startIfIdle s x) y := by
  rcases startIfIdle_cases s x with ⟨-, he⟩ | ⟨-, he⟩ <;> rw [he]
  · exact atRest_startFrame h
  · exact h

theorem startIfIdle_replies_le (s : State) (x y : Link) :
    ((startIfIdle s x).replies.get y).length ≤ (s.replies.get y).length := by
  rcases startIfIdle_cases s x with ⟨-, he⟩ | ⟨-, he⟩ <;> rw [he]
  exact startFrame_replies_le s x y

/-- Where one line alone may be disturbed, its frame start brings the invariant back. -/
theorem queueInv_startIfIdle (hb : QueueBounds s) (h : s.phase = .running → ∀ y, y ≠ x → AtRest s y) :
    QueueInv (startIfIdle s x) := by
  refine queueInv_iff.mpr ⟨queueBounds_startIfIdle hb, fun hp y => ?_⟩
  rw [startIfIdle_phase] at hp
  by_cases hy : y = x
  · exact hy ▸ atRest_startIfIdle_self hp
  · exact atRest_startIfIdle (h hp y hy)

end FrameStart

/-! ## Reports, replies and changes of owner -/

section Offers

variable {s : State}

theorem enqueueReport_reports_le (k : ReportKind) (h : s.reports.length ≤ 32) : (enqueueReport s k).reports.length ≤ 32 := by
  unfold enqueueReport
  split
  · rename_i hroom
    rw [List.length_append, List.length_singleton]
    exact hroom
  · exact h

/-- An offered report can disturb the owner's line alone, which then looks for a frame (R143). -/
theorem queueInv_offerReport (k : ReportKind) (h : QueueInv s) : QueueInv (offerReport s k) := by
  obtain ⟨hb, hrest⟩ := queueInv_iff.mp h
  refine queueInv_startIfIdle (s := enqueueReport s k)
    ⟨by simpa using hb.index, enqueueReport_reports_le k hb.reports, by simpa using hb.replies, by simpa using hb.silent⟩
    fun hp y hy htx => ?_
  rw [enqueueReport_phase] at hp
  rw [enqueueReport_tx] at htx
  rw [enqueueReport_arb] at hy
  rw [enqueueReport_replies, enqueueReport_arb]
  exact ⟨(hrest hp y htx).1, fun ho => absurd ho.symm hy⟩

theorem offerReport_replies_le (s : State) (k : ReportKind) (y : Link) :
    ((offerReport s k).replies.get y).length ≤ (s.replies.get y).length :=
  (startIfIdle_replies_le _ _ y).trans (by simp)

/-- A change of owner disturbs the new owner's line alone, which then looks for a frame (R21, R145). -/
theorem queueInv_changeOwner (x : Link) (c : Cause) (h : QueueInv s) : QueueInv (changeOwner s x c) := by
  obtain ⟨hb, hrest⟩ := queueInv_iff.mp h
  refine queueInv_offerReport _ (queueInv_startIfIdle ⟨hb.index, hb.reports, hb.replies, hb.silent⟩ fun hp y hy htx => ?_)
  exact ⟨(hrest hp y htx).1, fun ho => absurd ho.symm hy⟩

theorem changeOwner_replies_le (s : State) (x : Link) (c : Cause) (y : Link) :
    ((changeOwner s x c).replies.get y).length ≤ (s.replies.get y).length :=
  (offerReport_replies_le _ _ y).trans (startIfIdle_replies_le _ _ y)

/-- A queued reply disturbs its link's line alone, which then looks for a frame (R142, R145). -/
theorem queueInv_queueReply {x : Link} (r : Reply) (h : QueueInv s) (hp : s.phase = .running)
    (hroom : (s.replies.get x).length < 4) : QueueInv (queueReply s x r) := by
  obtain ⟨hb, hrest⟩ := queueInv_iff.mp h
  refine queueInv_startIfIdle ⟨hb.index, hb.reports, fun y => ?_, fun hn => absurd hp hn⟩ fun _ y hy htx => ?_
  · by_cases hy : y = x
    · subst hy
      simpa using hroom
    · rw [PerLink.get_put_of_ne _ _ hy]
      exact hb.replies y
  · simp only [PerLink.get_put_of_ne _ _ hy]
    exact hrest hp y htx

end Offers

/-! ## What keeps the invariant -/

/-- `t` keeps the invariant of `s`, in the same phase, and has no more replies waiting. -/
structure QueuesKept (s t : State) : Prop where
  phase   : t.phase = s.phase
  inv     : QueueInv s → QueueInv t
  replies : ∀ x, (t.replies.get x).length ≤ (s.replies.get x).length

theorem QueuesKept.refl (s : State) : QueuesKept s s := ⟨rfl, id, fun _ => le_rfl⟩

theorem QueuesKept.trans {s t u : State} (h : QueuesKept s t) (h' : QueuesKept t u) : QueuesKept s u :=
  ⟨h'.phase.trans h.phase, h'.inv ∘ h.inv, fun x => (h'.replies x).trans (h.replies x)⟩

/-- The fields that QueueInv speaks of. -/
structure ReturnView where
  phase      : Phase
  owner      : Link
  tableIndex : PerLink Nat
  replies    : PerLink (List Reply)
  tx         : PerLink (Option (List Byte))
  reports    : List Report

def returnView (s : State) : ReturnView := ⟨s.phase, s.arb.owner, s.tableIndex, s.replies, s.tx, s.reports⟩

theorem queuesKept_of_returnView {s t : State} (h : returnView t = returnView s) : QueuesKept s t := by
  obtain ⟨hphase, howner, hindex, hreplies, htx, hreports⟩ := ReturnView.mk.inj h
  refine ⟨hphase, fun ⟨h1, h2, h3, h4, h5⟩ => ?_, fun x => by rw [hreplies]⟩
  refine ⟨?_, ?_, ?_, ?_, ?_⟩
  · rwa [hindex]
  · rwa [hreports]
  · rwa [hreplies]
  · rwa [hphase, hreplies, htx]
  · rwa [hphase, howner, hreplies, htx, hreports]

theorem queueInv_of_returnView {s t : State} (h : QueueInv s) (ht : returnView t = returnView s) : QueueInv t :=
  (queuesKept_of_returnView ht).inv h

/-- A change of fields that QueueInv does not speak of, before a step that keeps the queues. -/
theorem QueuesKept.after_change {s t u : State} (h : QueuesKept u t) (hu : returnView u = returnView s) : QueuesKept s t :=
  (queuesKept_of_returnView hu).trans h

/-- A fold keeps the queues where each of its steps does. -/
theorem queuesKept_foldl {β : Type} {f : State → β → State} (h : ∀ s b, QueuesKept s (f s b)) (l : List β) (s : State) :
    QueuesKept s (l.foldl f s) := by
  induction l generalizing s with
  | nil => exact .refl s
  | cons b l ih => exact (h s b).trans (ih (f s b))

theorem queuesKept_startIfIdle (s : State) (x : Link) : QueuesKept s (startIfIdle s x) :=
  ⟨startIfIdle_phase s x,
    fun h => queueInv_startIfIdle (queueInv_iff.mp h).1 fun hp y _ => (queueInv_iff.mp h).2 hp y,
    startIfIdle_replies_le s x⟩

theorem queuesKept_offerReport (s : State) (k : ReportKind) : QueuesKept s (offerReport s k) :=
  ⟨offerReport_phase s k, queueInv_offerReport k, offerReport_replies_le s k⟩

theorem queuesKept_changeOwner (s : State) (x : Link) (c : Cause) : QueuesKept s (changeOwner s x c) :=
  ⟨changeOwner_phase s x c, queueInv_changeOwner x c, changeOwner_replies_le s x c⟩

theorem queuesKept_offerFault (s : State) (a : Nat) : QueuesKept s (offerFault s a) := by
  rcases offerFault_cases s a with ⟨-, h⟩ | ⟨-, -, h⟩ | ⟨-, -, h⟩ <;> rw [h]
  · exact .refl s
  · exact (queuesKept_offerReport _ _).after_change rfl
  · exact queuesKept_of_returnView rfl

theorem queuesKept_offerFaults (s : State) (as : List Nat) : QueuesKept s (offerFaults s as) :=
  queuesKept_foldl queuesKept_offerFault as s

end Sys2Proof.Machine
end

section
/-! The blocks other than the request engine and the queues: each keeps the queues and the return lines, since all it does to them
is to offer reports and to move ownership. -/

namespace Sys2Proof.Machine

/-! ## Show banks, patch hold and the table operations -/

section Banks

variable (s : State)

theorem returnView_rewriteAll (ws : List (Nat × Word)) : returnView (rewriteAll s ws) = returnView s := by
  rw [rewriteAll_frame]; rfl

theorem returnView_holdPatch : returnView (holdPatch s).1 = returnView s := by
  unfold holdPatch; split <;> rfl

theorem returnView_applyPatch : returnView (applyPatch s).1 = returnView s := by
  have taken (ws : List (Nat × Word)) (n : Nat) :
      returnView (if n = 0 then rewriteAll s ws else clearVerified (rewriteAll s ws) s.active) = returnView s := by
    split <;> exact returnView_rewriteAll s ws
  unfold applyPatch
  split
  · rfl
  · exact taken _ _

theorem returnView_discardPatch : returnView (discardPatch s).1 = returnView s := by
  unfold discardPatch; split <;> rfl

theorem returnView_startCopy (src dst n : Nat) : returnView (startCopy s src dst n).1 = returnView s := by
  have cleared (c : Bool) (t : State) (b : Bank) : returnView (if c then clearVerified t b else t) = returnView t := by
    cases c <;> rfl
  unfold startCopy
  iterate 5 (split; rfl)
  exact (cleared _ _ _).trans (cleared _ _ _)

theorem returnView_startVerify (b : Bank) : returnView (startVerify s b).1 = returnView s := by
  unfold startVerify
  iterate 2 (split; rfl)
  rfl

theorem queuesKept_endOperation (op : OpKind) (res : OpResult) (addr : Nat) :
    QueuesKept s (endOperation s op res addr) :=
  (queuesKept_offerReport _ _).after_change rfl

theorem queuesKept_copyOne : QueuesKept s (copyOne s) := by
  unfold copyOne
  split
  · split
    · dsimp only
      split
      · exact queuesKept_of_returnView rfl
      · exact (queuesKept_offerReport _ _).after_change rfl
    · exact (queuesKept_offerFault _ _).trans (queuesKept_endOperation _ _ _ _)
    · exact .refl s
  all_goals exact .refl s

theorem queuesKept_endVerify (b : Bank) (stale : Bool) (res : OpResult) (addr : Nat) :
    QueuesKept s (endVerify s b stale res addr) :=
  (queuesKept_offerReport _ _).after_change rfl

theorem queuesKept_declaredStep (b : Bank) (stale : Bool) (reads : Nat) (crc : BitVec 32) (upper : Option Word) (w : Word) :
    QueuesKept s (declaredStep s b stale reads crc upper w) := by
  unfold declaredStep
  split
  · exact queuesKept_of_returnView rfl
  · split
    · exact queuesKept_of_returnView rfl
    · exact queuesKept_endVerify _ _ _ _ _

theorem queuesKept_tablesStep (b : Bank) (stale : Bool) (reads count : Nat) (item : CheckItem) (got : List Word) (w : Word) :
    QueuesKept s (tablesStep s b stale reads count item got w) := by
  unfold tablesStep
  split
  · exact queuesKept_of_returnView rfl
  · exact queuesKept_endVerify _ _ _ _ _
  · dsimp only
    split
    · exact queuesKept_of_returnView rfl
    · exact queuesKept_endVerify _ _ _ _ _

theorem queuesKept_verifyOne : QueuesKept s (verifyOne s) := by
  unfold verifyOne
  split
  · split
    · exact .refl s
    · split
      · exact (queuesKept_offerFault _ _).trans (queuesKept_endVerify _ _ _ _ _)
      · split
        · exact queuesKept_of_returnView rfl
        · exact queuesKept_declaredStep _ _ _ _ _ _ _
        · exact queuesKept_tablesStep _ _ _ _ _ _ _ _
  all_goals exact .refl s

theorem queuesKept_indexRecord (b : Bank) (pos : Nat) : QueuesKept s (indexRecord b s pos) := by
  unfold indexRecord
  dsimp only
  split
  · exact queuesKept_of_returnView rfl
  · exact queuesKept_offerFaults _ _

theorem queuesKept_buildIndex (b : Bank) : QueuesKept s (buildIndex s b) := by
  unfold buildIndex
  dsimp only
  split
  · exact (queuesKept_offerFault _ _).after_change rfl
  · exact (queuesKept_foldl (fun u p => queuesKept_indexRecord u b p) _ _).after_change rfl

theorem returnView_selected (b : Bank) : returnView (selected s b) = returnView s := by
  unfold selected
  cases s.safeMode <;> rfl

theorem queuesKept_switchTo (b : Bank) : QueuesKept s (switchTo s b).1 := by
  have built := (queuesKept_buildIndex (selected s b) b).after_change (returnView_selected s b)
  rw [switchTo_eq]
  exact built.trans (queuesKept_offerReport _ _)

theorem queuesKept_switchBank (b : Bank) : QueuesKept s (switchBank s b).1 := by
  unfold switchBank
  iterate 4 (split; exact .refl s)
  exact queuesKept_switchTo s b

theorem returnView_abortOperation : returnView (abortOperation s).1 = returnView s := by
  unfold abortOperation; split <;> rfl

theorem returnView_clearFades : returnView (clearFades s) = returnView s := by
  simp only [returnView, clearFades]

/-- RESTART empties the queues, which brings both lines to rest, before it offers the report of an aborted operation (R146). -/
theorem queuesKept_restartPart : QueuesKept s (restartPart s) := by
  have aborted : returnView { (abortOperation (clearFades s)).1 with patchHold := false } = returnView s :=
    (returnView_abortOperation _).trans (returnView_clearFades s)
  have loaded (u : State) : returnView (if u.safeMode then u else loadShadow u) = returnView u := by
    cases u.safeMode <;> rfl
  have emptied (u : State) : QueuesKept u { u with
      replies := ⟨[], []⟩, reports := [], dropMark := false, faultList := [], faultOverflow := false } := by
    refine ⟨rfl, fun h => ?_, fun x => by simp [PerLink.get_pair]⟩
    obtain ⟨hb, -⟩ := queueInv_iff.mp h
    exact queueInv_iff.mpr ⟨⟨hb.index, Nat.zero_le _, fun x => by simp [PerLink.get_pair], fun hp => ⟨rfl, (hb.silent hp).2⟩⟩,
      fun _ x _ => ⟨PerLink.get_pair [] x, fun _ => rfl⟩⟩
  have cleared := (queuesKept_of_returnView ((loaded _).trans aborted)).trans (emptied _)
  unfold restartPart
  dsimp only
  split
  · exact cleared.trans (queuesKept_offerReport _ _)
  · exact cleared

end Banks

/-! ## The output lines and the composer -/

section Lines

variable (s : State)

theorem returnView_lineTick (k : LineNo) : returnView (lineTick s k) = returnView s := by
  unfold lineTick
  dsimp only
  split
  · split
    · split <;> rfl
    · rfl
  · rfl

theorem queuesKept_composeNext (k : LineNo) : QueuesKept s (composeNext s k) := by
  have composed (c period : Nat) : QueuesKept s (composeCircuit s c period).1 := by
    obtain ⟨n, -, ⟨u, -, h⟩ | ⟨a, -, h⟩⟩ := composeCircuit_cases s c period
    · rw [h]; exact queuesKept_of_returnView rfl
    · rw [h]; exact (queuesKept_offerFault s a).trans (queuesKept_of_returnView rfl)
  unfold composeNext
  dsimp only
  split
  · exact (composed _ _).trans (queuesKept_of_returnView rfl)
  · exact .refl s

theorem returnView_frameEnd (k : LineNo) : returnView (frameEnd s k) = returnView s := by
  unfold frameEnd
  dsimp only
  split
  · split <;> rfl
  · rfl

theorem returnView_startLine (k : LineNo) : returnView (startLine s k) = returnView s := by
  unfold startLine; split <;> rfl

end Lines

/-! ## The power-up check -/

section PowerUp

variable (s : State)

theorem queuesKept_repairWord (a : Nat) : QueuesKept s (repairWord s a) := by
  unfold repairWord
  split
  · exact (queuesKept_offerFault s a).trans (queuesKept_of_returnView rfl)
  · exact .refl s

theorem queuesKept_repairCurve (g : Nat) : QueuesKept s (repairCurve s g) := by
  unfold repairCurve
  split
  · exact .refl s
  · exact (queuesKept_offerFault s _).trans (queuesKept_of_returnView (returnView_rewriteAll _ _))

theorem queuesKept_examineBank (b : Bank) : QueuesKept s (examineBank s b).1 := by
  unfold examineBank
  split
  · exact .refl s
  · exact .refl s
  · exact queuesKept_offerFault s _

theorem queuesKept_decideBank : QueuesKept s (decideBank s).1 := by
  have first := queuesKept_examineBank s s.active
  have second := first.trans (queuesKept_examineBank (examineBank s s.active).1 (otherBank s.active))
  unfold decideBank
  dsimp only
  split
  · exact first.trans (queuesKept_of_returnView rfl)
  · split <;> exact second.trans (queuesKept_of_returnView rfl)

theorem queuesKept_loadBank (r : StartResult) : QueuesKept s (loadBank s r) := by
  cases r
  case safe => exact queuesKept_of_returnView rfl
  all_goals exact (queuesKept_buildIndex _ _).after_change rfl

end PowerUp

/-- Before the end of the check the return lines are IDLE whatever waits, so that ownership and the phase can move. -/
theorem queueInv_of_waiting {s t : State} (h : QueueInv s) (hp : s.phase ≠ .running) (hpt : t.phase ≠ .running)
    (hindex : t.tableIndex = s.tableIndex) (hreplies : t.replies = s.replies) (htx : t.tx = s.tx)
    (hreports : t.reports = s.reports) : QueueInv t := by
  obtain ⟨h1, h2, h3, h4, -⟩ := h
  exact ⟨hindex ▸ h1, hreports ▸ h2, hreplies ▸ h3, fun _ => hreplies ▸ htx ▸ h4 hp, fun hr => absurd hr hpt⟩

/-! ## The fade engine -/

section Fades

variable (s : State) (p : PlaybackNo)

theorem queuesKept_complete : QueuesKept s (complete s p) := by
  unfold complete
  dsimp only
  split
  · split
    · exact (queuesKept_offerReport _ _).after_change rfl
    · exact queuesKept_of_returnView rfl
  · exact queuesKept_of_returnView rfl

theorem queuesKept_beginCue (e : IndexEntry) (by_ : TakenBy) : QueuesKept s (beginCue s p e by_).1 := by
  rcases beginCue_cases s p e by_ with ⟨bad, -, h⟩ | ⟨d, -, h⟩ <;> rw [h]
  · exact queuesKept_offerFaults s bad
  · exact queuesKept_of_returnView rfl

theorem queuesKept_beginNext : QueuesKept s (beginNext s p).1 := by
  unfold beginNext
  split
  · exact queuesKept_offerFault _ _
  · exact .refl s
  · split
    · exact queuesKept_offerFault _ _
    · exact .refl s
    · exact queuesKept_beginCue _ _ _ _

theorem queuesKept_beginFirst : QueuesKept s (beginFirst s p).1 := by
  unfold beginFirst
  split
  · exact queuesKept_offerFault _ _
  · split
    · exact .refl s
    · exact queuesKept_beginCue _ _ _ _

theorem queuesKept_beginBack : QueuesKept s (beginBack s p).1 := by
  unfold beginBack
  split
  · exact queuesKept_offerFault _ _
  · exact .refl s
  · split
    · exact .refl s
    · split
      · exact queuesKept_offerFault _ _
      · exact queuesKept_beginCue _ _ _ _

theorem queuesKept_beginNamed (n : Nat) (t : Option Word) : QueuesKept s (beginNamed s p n t).1 := by
  unfold beginNamed
  split
  · exact queuesKept_offerFault _ _
  · split
    · exact .refl s
    · exact queuesKept_beginCue _ _ _ _

theorem queuesKept_completeChain (n : Nat) : QueuesKept s (completeChain n s p) := by
  induction n generalizing s with
  | zero => exact queuesKept_of_returnView rfl
  | succ n ih =>
    have completed := queuesKept_complete s p
    have next : QueuesKept s (beginNext (clearFollow (complete s p) p) p).1 :=
      completed.trans ((queuesKept_beginNext _ p).after_change rfl)
    unfold completeChain
    dsimp only
    split
    · split
      · exact next.trans (ih _)
      · exact next
    · exact completed

variable {s} in
theorem queuesKept_finishStart {r : State × Started} (h : QueuesKept s r.1) : QueuesKept s (finishStart r p).1 := by
  unfold finishStart completeIfDone
  split
  · exact h
  · dsimp only
    split
    · exact h.trans (queuesKept_completeChain _ p _)
    · exact h

theorem queuesKept_followExpires : QueuesKept s (followExpires s p) :=
  queuesKept_finishStart p ((queuesKept_beginNext _ p).after_change rfl)

theorem queuesKept_goPlayback : QueuesKept s (goPlayback s p).1 := by
  unfold goPlayback
  split
  case h_1 => exact .refl s
  case h_2 | h_3 => exact queuesKept_finishStart p (queuesKept_beginFirst s p)
  case h_4 | h_5 | h_6 => exact queuesKept_finishStart p (queuesKept_beginNext s p)

theorem queuesKept_backPlayback : QueuesKept s (backPlayback s p).1 := by
  unfold backPlayback
  split
  case h_1 | h_2 | h_3 => exact queuesKept_finishStart p (queuesKept_beginBack s p)
  case h_4 | h_5 | h_6 => exact .refl s

theorem queuesKept_gotoPlayback (n : Nat) (t : Option Word) : QueuesKept s (gotoPlayback s p n t).1 := by
  unfold gotoPlayback
  split
  · exact .refl s
  all_goals
    split
    · exact .refl s
    · exact queuesKept_finishStart p (queuesKept_beginNamed s p n t)

theorem returnView_pausePlayback : returnView (pausePlayback s p).1 = returnView s := by
  unfold pausePlayback
  dsimp only
  split
  · rfl
  · split <;> rfl
  all_goals rfl

theorem returnView_resumePlayback : returnView (resumePlayback s p).1 = returnView s := by
  unfold resumePlayback
  dsimp only
  split <;> rfl

theorem returnView_releaseWith (d : Nat) : returnView (releaseWith s p d) = returnView s := by
  unfold releaseWith
  dsimp only
  split <;> rfl

theorem queuesKept_releasePlayback (t : Option Word) : QueuesKept s (releasePlayback s p t).1 := by
  unfold releasePlayback
  split
  case h_1 | h_2 => exact .refl s
  all_goals
    split
    · exact queuesKept_of_returnView (returnView_releaseWith _ _ _)
    · split
      · exact queuesKept_offerFault _ _
      · exact queuesKept_of_returnView (returnView_releaseWith _ _ _)

theorem queuesKept_tickPlayback : QueuesKept s (tickPlayback s p) := by
  unfold tickPlayback
  dsimp only
  split
  · split
    · exact (queuesKept_completeChain _ p _).after_change rfl
    · exact queuesKept_of_returnView rfl
  · split <;> exact queuesKept_of_returnView rfl
  · split
    · exact .refl s
    · split
      · exact queuesKept_followExpires s p
      · exact queuesKept_of_returnView rfl
  all_goals exact .refl s

theorem queuesKept_panelCommand (k : Key) : QueuesKept s (panelCommand s k) := by
  cases k
  case go => exact queuesKept_goPlayback _ _
  case back => exact queuesKept_backPlayback _ _
  case pause =>
    simp only [panelCommand]
    split
    · exact queuesKept_of_returnView (returnView_resumePlayback _ _)
    · exact queuesKept_of_returnView (returnView_pausePlayback _ _)

theorem queuesKept_tickKey (k : Key) : QueuesKept s (tickKey s k) := by
  unfold tickKey
  dsimp only
  split
  · exact (queuesKept_panelCommand _ k).after_change rfl
  · exact queuesKept_of_returnView rfl

theorem queuesKept_fadeTick (o : StepOrder) : QueuesKept s (fadeTick s o) := by
  have keys (i : Nat) (u : State) : QueuesKept u (tickKeysAt o i u) := queuesKept_foldl queuesKept_tickKey _ u
  have each (u : State) (p : PlaybackNo) : QueuesKept u (tickPlayback (tickKeysAt o p.val u) p) :=
    (keys p.val u).trans (queuesKept_tickPlayback _ p)
  unfold fadeTick
  split
  · exact .refl s
  · exact (queuesKept_foldl each allPlaybacks s).trans (keys 16 _)

end Fades

/-! ## The arbiter and the link receivers -/

section Arbiter

variable (s : State)

theorem returnView_trigger (k : Table Nat) : returnView (trigger s k) = returnView s := by
  rcases trigger_cases s k with h | h | ⟨-, h⟩ <;> rw [h] <;> rfl

theorem queuesKept_trigger (k : Table Nat) : QueuesKept s (trigger s k) := queuesKept_of_returnView (returnView_trigger s k)

theorem queuesKept_returnTo (x : Link) : QueuesKept s (returnTo s x) := by
  unfold returnTo
  split
  · exact queuesKept_offerReport _ _
  · exact queuesKept_changeOwner _ _ _

theorem queuesKept_noticeLive (x : Link) (k : Table Nat) : QueuesKept s (noticeLive s x k) := by
  unfold noticeLive
  split
  · exact .refl s
  · split
    · exact (queuesKept_returnTo s x).trans (queuesKept_trigger _ k)
    · split
      · exact (queuesKept_changeOwner s x _).trans (queuesKept_trigger _ k)
      · split
        · exact queuesKept_trigger s k
        · exact .refl s

theorem queuesKept_noticeDown (x : Link) (k : Table Nat) : QueuesKept s (noticeDown s x k) := by
  unfold noticeDown
  split
  · exact .refl s
  · split
    · dsimp only
      split
      · exact ((queuesKept_changeOwner _ _ _).after_change rfl).trans (queuesKept_trigger _ k)
      · exact queuesKept_of_returnView rfl
    · split
      · exact queuesKept_trigger s k
      · exact .refl s

theorem returnView_arbiterTick : returnView (arbiterTick s) = returnView s := by
  unfold arbiterTick
  split
  · rfl
  · dsimp only
    split
    iterate 3 (split <;> rfl)
    all_goals rfl

theorem queuesKept_ownerMoved (x : Link) (c : Cause) : QueuesKept s (ownerMoved s x c) := by
  unfold ownerMoved
  split
  · exact .refl s
  · exact queuesKept_changeOwner _ _ _

theorem queuesKept_arbiterWritten (newMode newPreferred : Bool) (k : Table Nat) :
    QueuesKept s (arbiterWritten s newMode newPreferred k) := by
  have place (b : Bool) : QueuesKept s (if b then placeOwner s else s) := by
    cases b
    · exact .refl s
    · exact placeOwner_eq s ▸ queuesKept_ownerMoved s _ _
  have move (b : Bool) (u : State) : QueuesKept u (if b then changeOwner u u.working.preferred .reclaim else u) := by
    cases b
    · exact .refl u
    · exact queuesKept_changeOwner _ _ _
  have finish (b : Bool) (u : State) : QueuesKept u (if b then trigger u k else u) := by
    cases b
    · exact .refl u
    · exact queuesKept_trigger u k
  exact ((place _).trans (move _ _)).trans (finish _ _)

theorem queuesKept_takeControl (x : Link) : QueuesKept s (takeControl s x).1 := by
  unfold takeControl
  iterate 5 (split; exact .refl s)
  exact (queuesKept_changeOwner s x _).trans (queuesKept_trigger _ _)

theorem returnView_lockControl : returnView (lockControl s).1 = returnView s := by
  unfold lockControl; split <;> rfl

theorem queuesKept_acquire (x : Link) : QueuesKept s (acquire s x) := by
  unfold acquire
  dsimp only
  split
  · exact queuesKept_of_returnView rfl
  · split
    · exact queuesKept_of_returnView rfl
    · exact ((queuesKept_offerReport _ _).trans (queuesKept_noticeLive _ _ _)).after_change rfl
  · exact queuesKept_of_returnView rfl

theorem queuesKept_acceptLevels (x : Link) (b : Nat) (levels : List Byte) : QueuesKept s (acceptLevels s x b levels) := by
  have cleared (u : State) : returnView (clearHoldoff u x) = returnView u := by
    unfold clearHoldoff; split <;> rfl
  exact (queuesKept_acquire _ x).after_change ((cleared _).trans rfl)

theorem queuesKept_lossTick (x : Link) : QueuesKept s (lossTick s x) := by
  unfold lossTick
  dsimp only
  split
  · exact .refl s
  · split
    · exact ((queuesKept_offerReport _ _).trans (queuesKept_noticeDown _ _ _)).after_change rfl
    · exact queuesKept_of_returnView rfl

theorem returnView_gapExceeded (x : Link) : returnView (gapExceeded s x) = returnView s := by
  unfold gapExceeded; split <;> rfl

theorem returnView_drainEnds (x : Link) : returnView (drainEnds s x) = returnView s := by
  unfold drainEnds; split <;> rfl

end Arbiter

end Sys2Proof.Machine
end

section
/-! What a word of a WRITE does (R138, R140): a taken one in one of the ways of `WordTakes`, a refused one nothing but the offer of
a fault it has met. From it what the words leave as it was, and at which addresses they change the store. -/

namespace Sys2Proof.Machine

/-! ## One word -/

/-- What a word `v` that is taken at address `a` makes of `s`: a setting stored with its working copy (R19, R123, R139), a counter
cleared (R17), a bound stack stored (R54), a word stored that acts on nothing else (R53, R115), words of the active bank's
tables (R150), or a word of a staged bank (R152). -/
inductive WordTakes (s : State) (a : Nat) (v : Word) : State → Prop
  | setting (w : Word) : WordTakes s a v (takeGlobal s a w)
  | counter (x : Link) (l : LinkRx) : WordTakes s a v (setLink s x l)
  | late (k : LineNo) (l : Line) : WordTakes s a v (setLine s k l)
  | bound (p : PlaybackNo) (st : PlaybackState) :
      WordTakes s a v (setPlayback (rewrite s a v) p { playbackAt s p with state := st })
  | word (w : Word) : WordTakes s a v (rewrite s a w)
  | active (off : Nat) (ws : List (Nat × Word)) (hs : s.safeMode = false) (ha : a = bankBase s.active + off)
      (hoff : off < 2627) (hws : tableCheck (shadowWord s) off v = some ws) : WordTakes s a v (takeActive s ws)
  | staged (b : Bank) : WordTakes s a v { clearVerified (rewrite s a v) b with slot := markStale s.slot b }

/-- What a word that is refused makes of `s`: nothing, or the offer of a fault that its check has met (R150). -/
def WordRefused (s t : State) (res : Result) : Prop := res ≠ .ok ∧ (t = s ∨ ∃ f, t = offerFault s f)

/-- What the offer of a word comes to. -/
def WordEnds (s : State) (a : Nat) (v : Word) : WordResult → Prop
  | .taken t => WordTakes s a v t
  | .refused res t => WordRefused s t res

section Word

variable {s t : State} {a : Nat} {v : Word}

theorem wordRefused_same {res : Result} (h : res ≠ .ok) : WordRefused s s res := ⟨h, .inl rfl⟩

theorem wordEnds_writeStatus (i : Nat) : WordEnds s a v (writeStatus s i) := by
  unfold writeStatus
  split
  · exact .counter .a _
  · split
    · exact .counter .b _
    · split
      · exact .late _ _
      · exact wordRefused_same (by decide)

theorem wordEnds_writeBoundStack {p : PlaybackNo} (ha : a = playbackAddr p 0) : WordEnds s a v (writeBoundStack s p v) := by
  subst ha
  unfold writeBoundStack
  iterate 3 (split; exact wordRefused_same (by decide))
  exact .bound p _

theorem wordEnds_writePlayback {p : PlaybackNo} {i : Nat} (ha : a = playbackAddr p i) :
    WordEnds s a v (writePlayback s p i v) := by
  subst ha
  unfold writePlayback
  split
  · exact wordEnds_writeBoundStack rfl
  iterate 4 exact .word _
  exact wordRefused_same (by decide)

theorem wordEnds_checkActive {off : Nat} (hs : s.safeMode = false) (ha : a = bankBase s.active + off) (hoff : off < 2627) :
    WordEnds s a v (checkActive s off v) := by
  unfold checkActive
  split
  · exact wordRefused_same (by decide)
  · rename_i ws hws; exact .active off ws hs ha hoff hws

theorem wordEnds_writeActive {off : Nat} (hs : s.safeMode = false) (ha : a = bankBase s.active + off) :
    WordEnds s a v (writeActive s off v) := by
  unfold writeActive
  split
  · exact wordRefused_same (by decide)
  · rename_i htable
    have hoff : off < 2627 := (isTableOff_iff.mp (by simpa using htable)).2
    split
    · split
      · rename_i f _; exact ⟨by decide, .inr ⟨f, rfl⟩⟩
      · exact wordRefused_same (by decide)
      · exact wordEnds_checkActive hs ha hoff
    · exact wordEnds_checkActive hs ha hoff

theorem wordEnds_writeStaged {b : Bank} {off : Nat} (ha : a = bankBase b + off) :
    WordEnds s a v (writeStaged s b off v) := by
  subst ha
  unfold writeStaged
  split
  · exact wordRefused_same (by decide)
  · exact .staged b

theorem placeOf_eq_playback {p : PlaybackNo} {i : Nat} (h : placeOf a = .playback p i) : a = playbackAddr p i := by
  unfold placeOf at h
  iterate 2 (split at h; cases h)
  split at h
  · obtain ⟨rfl, rfl⟩ := Place.playback.inj h
    simp only [playbackAddr]
    omega
  · repeat (split at h; cases h)
    cases h

theorem placeOf_eq_bank {b : Bank} {off : Nat} (h : placeOf a = .bank b off) : a = bankBase b + off ∧ off < bankWords := by
  unfold placeOf at h
  iterate 6 (split at h; cases h)
  split at h
  · cases h; simp only [bankBase, bankWords]; omega
  · split at h
    · cases h; simp only [bankBase, bankWords]; omega
    · cases h

/-- Every word that is offered ends in one of these ways. -/
theorem wordEnds_writeWord (s : State) (a : Nat) (v : Word) : WordEnds s a v (writeWord s a v) := by
  unfold writeWord
  split
  case h_1 => exact wordRefused_same (by decide)
  case h_2 i hi =>
    rw [← placeOf_eq_global hi]
    split
    · exact wordRefused_same (by decide)
    · exact .setting _
  case h_3 i _ => exact wordEnds_writeStatus i
  case h_4 hp => exact wordEnds_writePlayback (placeOf_eq_playback hp)
  case h_5 => exact wordRefused_same (by decide)
  case h_6 => exact wordRefused_same (by decide)
  case h_7 =>
    split
    · exact wordRefused_same (by decide)
    · exact .word v
  case h_8 hb =>
    obtain ⟨ha, -⟩ := placeOf_eq_bank hb
    split
    · rename_i hactive
      obtain ⟨hs, rfl⟩ := isActive_iff.mp hactive
      exact wordEnds_writeActive hs ha
    · exact wordEnds_writeStaged ha

theorem wordTakes_of_taken (h : writeWord s a v = .taken t) : WordTakes s a v t := by
  have hends := wordEnds_writeWord s a v
  rwa [h] at hends

theorem wordRefused_of_refused {res : Result} (h : writeWord s a v = .refused res t) : WordRefused s t res := by
  have hends := wordEnds_writeWord s a v
  rwa [h] at hends

end Word

/-! ## What a word leaves as it was -/

/-- `t` is `s` but for the fields that the words of a WRITE act on, with the fault list and the queues that the offer of a fault
changes. -/
def WordsFrame (s t : State) : Prop :=
  t = { s with links := t.links, working := t.working, slot := t.slot, verified := t.verified, store := t.store,
               shadow := t.shadow, faultList := t.faultList, faultOverflow := t.faultOverflow, playbacks := t.playbacks,
               lines := t.lines, replies := t.replies, tx := t.tx, reports := t.reports, dropMark := t.dropMark }

theorem WordsFrame.refl (s : State) : WordsFrame s s := rfl

theorem WordsFrame.trans {s t u : State} (h : WordsFrame s t) (h' : WordsFrame t u) : WordsFrame s u := by
  unfold WordsFrame at *
  rw [h', h]

section Taken

variable {s t : State} {a : Nat} {v : Word}

theorem takeGlobal_frame (s : State) (i : Nat) (w : Word) : takeGlobal s i w =
    { rewrite s (globalAddr i) w with working := loadSetting s.working i w, lines := (takeGlobal s i w).lines } := by
  unfold takeGlobal
  dsimp only
  split <;> rfl

theorem takeActive_frame (s : State) (ws : List (Nat × Word)) : takeActive s ws =
    { s with store := (takeActive s ws).store, faultList := (takeActive s ws).faultList,
             shadow := (takeActive s ws).shadow, verified := (takeActive s ws).verified } := by
  unfold takeActive
  dsimp only
  split
  · rfl
  · rw [rewriteAll_frame]; rfl

theorem WordTakes.frame (h : WordTakes s a v t) : WordsFrame s t := by
  cases h
  case setting w => unfold WordsFrame; rw [takeGlobal_frame]; rfl
  case active ws _ _ _ _ => unfold WordsFrame; rw [takeActive_frame]
  all_goals rfl

theorem WordRefused.frame {res : Result} (h : WordRefused s t res) : WordsFrame s t := by
  obtain ⟨-, rfl | ⟨f, rfl⟩⟩ := h
  · exact .refl t
  · unfold WordsFrame; rw [offerFault_frame]

/-- A taken word is no matter of the queues. -/
theorem WordTakes.returnView (h : WordTakes s a v t) : returnView t = returnView s := by
  cases h
  case setting w => rw [takeGlobal_frame]; rfl
  case active ws _ _ _ _ => rw [takeActive_frame]; rfl
  all_goals rfl

theorem WordRefused.queuesKept {res : Result} (h : WordRefused s t res) : QueuesKept s t := by
  obtain ⟨-, rfl | ⟨f, rfl⟩⟩ := h
  · exact .refl t
  · exact queuesKept_offerFault s f

theorem WordRefused.store {res : Result} (h : WordRefused s t res) : t.store = s.store := by
  obtain ⟨-, rfl | ⟨f, rfl⟩⟩ := h
  · rfl
  · exact offerFault_store s f

/-- The level list and the current cue of a playback are no matter of a word: a bound stack moves its state alone (R54). -/
def SameCues (s t : State) : Prop :=
  ∀ p, (playbackAt t p).list = (playbackAt s p).list ∧ (playbackAt t p).cue = (playbackAt s p).cue

theorem sameCues_of_playbacks (h : t.playbacks = s.playbacks) : SameCues s t := fun p => by simp [playbackAt, h]

theorem SameCues.trans {u : State} (h : SameCues s t) (h' : SameCues t u) : SameCues s u :=
  fun p => ⟨(h' p).1.trans (h p).1, (h' p).2.trans (h p).2⟩

theorem WordTakes.sameCues (h : WordTakes s a v t) : SameCues s t := by
  cases h
  case bound p st =>
    intro q
    by_cases hq : q = p
    · subst hq; simp
    · rw [playbackAt_setPlayback_of_ne _ _ hq]; exact ⟨rfl, rfl⟩
  case setting w => exact sameCues_of_playbacks (by rw [takeGlobal_frame]; rfl)
  case active ws _ _ _ _ => exact sameCues_of_playbacks (by rw [takeActive_frame])
  all_goals exact sameCues_of_playbacks rfl

theorem WordRefused.sameCues {res : Result} (h : WordRefused s t res) : SameCues s t := by
  obtain ⟨-, rfl | ⟨f, rfl⟩⟩ := h
  · exact sameCues_of_playbacks rfl
  · exact sameCues_of_playbacks (offerFault_playbacks s f)

/-! ## The addresses at which a word changes the store -/

/-- The address after that of a region's base in the active bank: the count that a written base may reduce (R151). -/
def RegionCountAt (s : State) (a c : Nat) : Prop :=
  c = a + 1 ∧ s.safeMode = false ∧ ∃ g < 8, a = bankBase s.active + 2563 + 8 * g

/-- R151: a word that passes its checks changes its own offset, and a region's base its count too. -/
theorem tableCheck_offsets {shadow : Nat → Word} {off : Nat} {ws : List (Nat × Word)} (hoff : off < 2627)
    (h : tableCheck shadow off v = some ws) {w : Nat × Word} (hw : w ∈ ws) :
    w.1 = off ∨ (w.1 = off + 1 ∧ ∃ g < 8, off = 2563 + 8 * g) := by
  have alone {c : Prop} [Decidable c] {w' : Word} (h : (if c then some [(off, w')] else none) = some ws) : w.1 = off := by
    split at h <;> simp only [Option.some.injEq, reduceCtorEq] at h
    subst h
    rw [List.mem_singleton.mp hw]
  have single {w' : Word} (h : some [(off, w')] = some ws) : w.1 = off := alone (c := True) (by rwa [if_pos trivial])
  unfold tableCheck at h
  split at h
  · exact .inl (alone h)
  · split at h
    · split at h <;> exact .inl (alone h)
    · dsimp only at h
      split at h
      case h_1 hbase =>
        split at h
        · split at h
          · obtain rfl : _ = ws := Option.some.inj h
            rcases List.mem_pair.mp hw with rfl | rfl
            · exact .inl rfl
            · exact .inr ⟨by dsimp only; omega, (off - 2563) / 8, by omega, by omega⟩
          · exact .inl (single h)
        · cases h
      case h_2 => exact .inl (single h)
      case h_5 => exact .inl (single h)
      all_goals exact .inl (alone h)

theorem stored_takeActive {ws : List (Nat × Word)} {c : Nat} (h : stored (takeActive s ws) c ≠ stored s c) :
    ∃ w ∈ ws, c = bankBase s.active + w.1 := by
  by_contra hn
  refine h ?_
  unfold takeActive
  dsimp only
  split
  · rfl
  · refine (stored_rewriteAll_of_not_mem (writeShadow s ws) _ fun w hw hc => ?_).trans rfl
    obtain ⟨w', hw', rfl⟩ := List.mem_map.mp hw
    exact hn ⟨w', hw', hc.symm⟩

/-- A taken word changes the store at its own address, and at the count of a region of the active bank whose base it is. -/
theorem WordTakes.stored (h : WordTakes s a v t) {c : Nat} (hc : stored t c ≠ stored s c) : c = a ∨ RegionCountAt s a c := by
  have rewritten {u : State} {w : Word} (hu : u.store = (rewrite s a w).store)
      (hc : Machine.stored u c ≠ Machine.stored s c) : c = a := by
    by_contra hne
    rw [stored_congr hu, stored_rewrite_of_ne s w hne] at hc
    exact hc rfl
  cases h
  case setting w => exact .inl (rewritten (w := w) (by rw [takeGlobal_frame]; rfl) hc)
  case counter => exact absurd rfl hc
  case late => exact absurd rfl hc
  case active off ws hs ha hoff hws =>
    obtain ⟨w, hw, rfl⟩ := stored_takeActive hc
    rcases tableCheck_offsets hoff hws hw with he | ⟨he, g, hg, hoff⟩
    · exact .inl (by rw [ha, he])
    · exact .inr ⟨by rw [ha, he]; rfl, hs, g, hg, by rw [ha, hoff]; omega⟩
  all_goals exact .inl (rewritten rfl hc)

end Taken

/-! ## The words of a WRITE -/

theorem queuesKept_writeWords (s : State) (a : Nat) (ws : List Word) : QueuesKept s (writeWords s a ws).1 := by
  induction ws generalizing s a with
  | nil => exact .refl s
  | cons w ws ih =>
    simp only [writeWords]
    split
    · rename_i hw; exact (wordRefused_of_refused hw).queuesKept
    · rename_i hw; exact (ih _ _).after_change (wordTakes_of_taken hw).returnView

end Sys2Proof.Machine
end

section
/-! What a step can be: the occasion that its command brings about, or nothing. Commands that name one occasion differ in when it
is due alone (log 6), so that what holds of every step needs a case for each occasion and not for each command. -/

namespace Sys2Proof.Machine

/-- What a command can make of a state: one of the part's operations, or nothing. -/
inductive Occasion (s : State) : State → Prop
  | nothing : Occasion s s
  | fullReset : Occasion s (resetPart s)
  | resetRelease : Occasion s (releaseReset s)
  | checkEnd : Occasion s (endCheck s)
  | byte (x : Link) (b : Byte) : Occasion s (takeByte s x b)
  | gap (x : Link) : Occasion s (gapExceeded s x)
  | drainEnd (x : Link) : Occasion s (drainEnds s x)
  | lossStep (x : Link) : Occasion s (lossTick s x)
  | arbiterStep : Occasion s (arbiterTick s)
  | request (r : Req) (q : Request) : Occasion s (takeRequest s r q)
  | wordWrite (r : Req) (a : Nat) (v : Word) : Occasion s (takeWordWrite s r a v)
  | copyWord : Occasion s (copyOne s)
  | verifyWord : Occasion s (verifyOne s)
  | fadeStep (o : StepOrder) : Occasion s (fadeTick s o)
  | keyInput (pn : Panel) : Occasion s { s with panel := pn }
  | lineStep (k : LineNo) : Occasion s (lineTick s k)
  | circuit (k : LineNo) : Occasion s (composeNext s k)
  | frameEnd (k : LineNo) : Occasion s (frameEnd s k)
  | returnStart (x : Link) : Occasion s (startIfIdle s x)
  | returnEnd (x : Link) (h : s.tx.get x ≠ none) : Occasion s (startFrame s x)
  | parityFault (a : Nat) (v : Word) : Occasion s (parityFaultAt s a v)

/-- An outcome whose next states come of an occasion. -/
def Brings (s : State) (o : Host.Outcome State Fault Refusal) : Prop := ∀ t, o = .next t → Occasion s t

section Brings

variable {s u : State} {o : Host.Outcome State Fault Refusal}

theorem brings_next (h : Occasion s u) : Brings s (.next u) := fun _ ht => by
  injection ht with ht
  exact ht ▸ h

theorem brings_settle (h : Occasion s u) : Brings s (settle u) := fun _ ht => (settle_eq_next.mp ht).2 ▸ h

/-- A command that names an event does nothing where the event is not due. -/
theorem brings_due {c : Prop} [Decidable c] (h : Brings s o) : Brings s (if c then o else .next s) := by
  split
  · exact h
  · exact brings_next .nothing

/-- Every command brings about its occasion, or nothing. -/
theorem brings_exec (s : State) (i : Instr) : Brings s (exec i s) := by
  cases i
  case fullReset => exact brings_next .fullReset
  case resetRelease => exact brings_next .resetRelease
  case powerUpCheckEnd => exact brings_next .checkEnd
  case receivedByte x b => exact brings_settle (.byte x b)
  case frameComplete x b => exact brings_due (brings_settle (.byte x b))
  case oversizeFrame x b => exact brings_due (brings_settle (.byte x b))
  case gapError x => exact brings_next (.gap x)
  case drainEnd x => exact brings_next (.drainEnd x)
  case lossTimerStep x => exact brings_next (.lossStep x)
  case lossTimerExpiry x => exact brings_due (brings_next (.lossStep x))
  case arbiterStep => exact brings_next .arbiterStep
  case handoverComplete => exact brings_due (brings_next .arbiterStep)
  case lossFadeStart => exact brings_due (brings_next .arbiterStep)
  case lossFadeEnd => exact brings_due (brings_next .arbiterStep)
  case sourceModeWrite r v => exact brings_next (.wordWrite r _ v)
  case preferredLinkWrite r v => exact brings_next (.wordWrite r _ v)
  case boundStackWrite r p v => exact brings_next (.wordWrite r _ v)
  case unitNumberWrite r v => exact brings_next (.wordWrite r _ v)
  case lineEnableWrite r k v => exact brings_next (.wordWrite r _ v)
  case counterClear r off v => exact brings_due (brings_next (.wordWrite r _ v))
  case activeBankWrite r off v => exact brings_due (brings_next (.wordWrite r _ v))
  case stagedBankWrite r bank off v => exact brings_due (brings_next (.wordWrite r _ v))
  case index r a => exact brings_next (.request r (.index a))
  case write r ws => exact brings_next (.request r (.write ws))
  case read r n => exact brings_next (.request r (.read n))
  case hold r => exact brings_next (.request r .hold)
  case apply r => exact brings_next (.request r .apply)
  case discard r => exact brings_next (.request r .discard)
  case copy r src dst n => exact brings_next (.request r (.copy src dst n))
  case verify r b => exact brings_next (.request r (.verify b))
  case switch r b => exact brings_next (.request r (.switch b))
  case go r p => exact brings_settle (.request r (.go p))
  case back r p => exact brings_settle (.request r (.back p))
  case goto r p n t => exact brings_settle (.request r (.goto p n t))
  case pause r p => exact brings_next (.request r (.pause p))
  case resume r p => exact brings_next (.request r (.resume p))
  case release r p t => exact brings_next (.request r (.release p t))
  case take r => exact brings_next (.request r .take)
  case lock r => exact brings_next (.request r .lock)
  case unlock r => exact brings_next (.request r .unlock)
  case restart r => exact brings_next (.request r .restart)
  case copyWord => exact brings_next .copyWord
  case verifyWord => exact brings_next .verifyWord
  case fadeStep o => exact brings_settle (.fadeStep o)
  case partDelayEnd p part o => exact brings_due (brings_settle (.fadeStep o))
  case cueCompletion p o => exact brings_due (brings_settle (.fadeStep o))
  case releaseCompletion p o => exact brings_due (brings_settle (.fadeStep o))
  case followExpiry p o => exact brings_due (brings_settle (.fadeStep o))
  case keyPressed k o => exact brings_due (brings_settle (.fadeStep o))
  case keyReleased k o => exact brings_due (brings_settle (.fadeStep o))
  case keyInputChange k pressed =>
    simp only [exec, execKeyInputChange]
    split
    · exact brings_next .nothing
    · exact brings_next (.keyInput _)
  case lineStep k => exact brings_next (.lineStep k)
  case periodTimerExpiry k => exact brings_due (brings_next (.lineStep k))
  case circuitComposition k => exact brings_next (.circuit k)
  case endOfFrame k => exact brings_next (.frameEnd k)
  case returnFrameStart x => exact brings_next (.returnStart x)
  case returnFrameEnd x =>
    simp only [exec, execReturnFrameEnd]
    split
    · exact brings_next .nothing
    · rename_i htx; exact brings_next (.returnEnd x htx)
  case parityFault a v => exact brings_next (.parityFault _ v)

end Brings

/-- What a step can do: on an empty queue nothing, otherwise what the front command brings about on the rest of the queue. -/
theorem step_cases {s t : State} (h : step s = .next t) : t = s ∨ ∃ rest, Occasion { s with pending := rest } t := by
  unfold step at h
  split at h
  · injection h with h
    exact .inl h.symm
  · rename_i c rest _
    exact .inr ⟨rest, brings_exec { s with pending := rest } c t h⟩

end Sys2Proof.Machine
end

section
/-! The requests keep the queues and the return lines, and so does every step. -/

namespace Sys2Proof.Machine

/-! ## The requests -/

section Requests

variable {s : State}

/-- An index set to a 24-bit address (R137). -/
theorem queuesKept_setIndex (s : State) (x : Link) {n : Nat} (hn : n < 0x1000000) :
    QueuesKept s { s with tableIndex := s.tableIndex.put x n } := by
  refine ⟨rfl, fun ⟨hindex, hrest⟩ => ⟨fun y => ?_, hrest⟩, fun _ => le_rfl⟩
  by_cases hy : y = x
  · subst hy; simpa using hn
  · simpa only [PerLink.get_put_of_ne _ _ hy] using hindex y

theorem mod_24_lt (n : Nat) : n % 0x1000000 < 0x1000000 := Nat.mod_lt _ (by decide)

theorem queuesKept_writeFrom (s : State) (x : Link) (a : Nat) (ws : List Word) : QueuesKept s (writeFrom s x a ws).1 := by
  rw [writeFrom_of_words rfl]
  exact ((queuesKept_writeWords s a ws).trans (queuesKept_arbiterWritten _ _ _ _)).trans
    (queuesKept_setIndex _ x (mod_24_lt _))

theorem queuesKept_answerRead (s : State) (x : Link) (n : Nat) : QueuesKept s (answerRead s x n).state := by
  have index := queuesKept_setIndex s x (mod_24_lt (s.tableIndex.get x + (readWords s (s.tableIndex.get x) n).1.length))
  unfold answerRead
  dsimp only
  split
  · exact index.trans (queuesKept_offerFault _ _)
  · exact index

theorem returnView_answerApply (s : State) : returnView (answerApply s).state = returnView s := by
  unfold answerApply
  dsimp only
  split <;> exact returnView_applyPatch s

theorem queuesKept_answer (s : State) (x : Link) (q : Request) : QueuesKept s (answer s x q).state := by
  cases q
  case index a => exact queuesKept_setIndex s x a.isLt
  case write => exact queuesKept_writeFrom s x _ _
  case read => exact queuesKept_answerRead s x _
  case hold => exact queuesKept_of_returnView (returnView_holdPatch s)
  case apply => exact queuesKept_of_returnView (returnView_answerApply s)
  case discard => exact queuesKept_of_returnView (returnView_discardPatch s)
  case copy => exact queuesKept_of_returnView (returnView_startCopy s _ _ _)
  case verify => exact queuesKept_of_returnView (returnView_startVerify s _)
  case switch => exact queuesKept_switchBank s _
  case go => exact queuesKept_goPlayback s _
  case back => exact queuesKept_backPlayback s _
  case goto => exact queuesKept_gotoPlayback s _ _ _
  case pause => exact queuesKept_of_returnView (returnView_pausePlayback s _)
  case resume => exact queuesKept_of_returnView (returnView_resumePlayback s _)
  case release => exact queuesKept_releasePlayback s _ _
  case take => exact queuesKept_takeControl s x
  case lock => exact queuesKept_of_returnView (returnView_lockControl s)
  case unlock => exact queuesKept_of_returnView rfl
  case restart => exact queuesKept_restartPart s

theorem queuesKept_refusal (s : State) (code : Byte) (r : Result) : QueuesKept s (refusal s code r).state := by
  obtain ⟨data, n, h, -⟩ := refusal_eq s code r
  rw [h]
  exact queuesKept_of_returnView rfl

/-- A reply finds the slot that its request was taken for, since a request's run takes from the queues of replies alone (R10). -/
theorem queueInv_reply {r : Req} {code : Byte} {a : Answer} (h : QueueInv s) (hp : s.phase = .running)
    (hslot : noSlot s r = false) (ha : QueuesKept s a.state) : QueueInv (reply r code a) := by
  unfold reply
  split
  · exact ha.inv h
  · rename_i hb
    have hroom : (s.replies.get r.link).length < 4 := by simpa [noSlot, hb] using hslot
    exact queueInv_queueReply _ (ha.inv h) (ha.phase.trans hp) ((ha.replies r.link).trans_lt hroom)

theorem queueInv_takeWith {r : Req} {code : Byte} {valid ownerOnly : Bool} {run : State → Answer} (h : QueueInv s)
    (hrun : QueuesKept s (run s).state) : QueueInv (takeWith s r code valid ownerOnly run) := by
  unfold takeWith
  split
  · exact h
  · rename_i hp
    have hp : s.phase = .running := not_not.mp hp
    split
    · exact queueInv_of_returnView h rfl
    · rename_i hslot
      have hslot : noSlot s r = false := by simpa using hslot
      split
      · exact queueInv_reply h hp hslot (queuesKept_refusal s code _)
      · split
        · exact queueInv_reply h hp hslot (queuesKept_refusal s code _)
        · exact queueInv_reply h hp hslot hrun

theorem queueInv_takeRequest (r : Req) (q : Request) (h : QueueInv s) : QueueInv (takeRequest s r q) :=
  queueInv_takeWith h (queuesKept_answer s r.link q)

theorem queueInv_takeWordWrite (r : Req) (a : Nat) (v : Word) (h : QueueInv s) : QueueInv (takeWordWrite s r a v) :=
  queueInv_takeWith h (queuesKept_writeFrom s r.link a [v])

theorem queueInv_takeBytes (r : Req) (code : Byte) (params : List Byte) (h : QueueInv s) :
    QueueInv (takeBytes s r code params) := by
  unfold takeBytes
  split
  · exact queueInv_takeRequest r _ h
  · exact queueInv_takeWith h (.refl s)

end Requests

/-! ## Frames and bytes of a link receiver -/

section Bytes

variable {s : State} {x : Link}

/-- A link receiver is no matter of the queues. -/
theorem queueInv_setLink (l : LinkRx) (h : QueueInv s) : QueueInv (setLink s x l) :=
  queueInv_of_returnView h rfl

theorem queueInv_acceptRequest (unit tag code : Byte) (params : List Byte) (h : QueueInv s) :
    QueueInv (acceptRequest s x unit tag code params) := by
  unfold acceptRequest
  dsimp only
  split
  · exact queueInv_setLink _ h
  · split
    · exact queueInv_takeBytes _ _ _ (queueInv_setLink _ h)
    · exact queueInv_setLink _ (queueInv_setLink _ h)

theorem queueInv_frameDone (typ : Byte) (payload : List Byte) (crcHi crcLo : Byte) (h : QueueInv s) :
    QueueInv (frameDone s x typ payload crcHi crcLo) := by
  unfold frameDone
  split
  · exact queueInv_setLink _ h
  · split
    · split
      · dsimp only
        split
        · exact (queuesKept_acceptLevels _ x _ _).inv (queueInv_setLink _ h)
        · exact queueInv_setLink _ h
      · exact queueInv_setLink _ h
    · split
      · split
        · exact queueInv_acceptRequest _ _ _ _ (queueInv_setLink _ h)
        · exact queueInv_setLink _ h
      · exact queueInv_setLink _ h

theorem queueInv_takeByte (x : Link) (b : Byte) (h : QueueInv s) : QueueInv (takeByte s x b) := by
  unfold takeByte
  split
  · exact h
  · split
    · split
      · exact queueInv_setLink _ h
      · exact h
    · unfold headerByte
      split
      · split <;> exact queueInv_setLink _ h
      · exact queueInv_setLink _ h
    · unfold bodyByte
      split
      · exact queueInv_setLink _ h
      · split
        · exact queueInv_setLink _ h
        · exact queueInv_frameDone _ _ _ _ h
    · exact h

end Bytes

/-! ## Full reset, its release, and the end of the power-up check -/

section Start

variable {s : State}

theorem queueInv_resetPart (s : State) : QueueInv (resetPart s) :=
  queueInv_of_returnView queueInv_reset rfl

/-- The arbiter's initialisation, which places ownership while the return lines are held IDLE (R37). -/
theorem queueInv_arbiterInit (h : QueueInv s) (hp : s.phase ≠ .running) : QueueInv (arbiterInit s) := by
  have placed (a : Arbiter) : QueueInv { s with arb := a } := queueInv_of_waiting h hp hp rfl rfl rfl rfl
  have returned (a : Arbiter) (x : Link) (k : Table Nat) : QueueInv (trigger (returnTo { s with arb := a } x) k) :=
    ((queuesKept_returnTo _ x).trans (queuesKept_trigger _ k)).inv (placed a)
  unfold arbiterInit
  dsimp only
  generalize (if s.working.sourceMode = .isolated then SourceState.off else .hold) = source
  split
  · split
    · exact returned _ _ _
    · exact placed _
  · split
    · exact returned _ _ _
    · exact placed _

theorem queuesKept_repaired (s : State) : QueuesKept { s with phase := .checking } (repaired s) :=
  ((queuesKept_foldl queuesKept_repairWord settingAddrs _).trans
    (queuesKept_foldl queuesKept_repairCurve (List.range' 1 7) _)).after_change rfl

/-- After the repair the working copies are loaded, the bank is selected, and the arbiter and the playbacks are initialised. -/
theorem queueInv_initialised {u : State} (bank : Bank) (h : QueueInv u) (hp : u.phase ≠ .running) :
    QueueInv (clearFades (arbiterInit { loadWorking u with active := bank })) := by
  have loaded : QueueInv { loadWorking u with active := bank } :=
    queueInv_of_returnView h (by simp only [returnView, loadWorking])
  exact queueInv_of_returnView (queueInv_arbiterInit loaded hp) (returnView_clearFades _)

theorem queueInv_releaseReset (h : QueueInv s) : QueueInv (releaseReset s) := by
  by_cases hp : s.phase = .inReset
  · have kept := queuesKept_repaired s
    have checking : QueueInv { s with phase := .checking } :=
      queueInv_of_waiting h (by simp [hp]) (by simp) rfl rfl rfl rfl
    rw [releaseReset_eq hp]
    exact queueInv_initialised _ (kept.inv checking) (kept.phase.trans_ne (by simp))
  · unfold releaseReset
    rwa [if_pos hp]

/-- Frame starts on both lines, the one of link A first, bring both to rest. -/
theorem queueInv_startIfIdle_both (h : QueueBounds s) (hp : s.phase = .running) :
    QueueInv (startIfIdle (startIfIdle s .a) .b) := by
  refine queueInv_startIfIdle (queueBounds_startIfIdle h) fun _ y hy => ?_
  obtain rfl : y = .a := eq_otherLink_of_ne hy
  exact atRest_startIfIdle_self hp

/-- At the end of the check both lines look for a frame (R169). -/
theorem queueInv_endCheck (h : QueueInv s) : QueueInv (endCheck s) := by
  by_cases hp : s.phase = .checking
  · rw [endCheck_eq hp]
    have kept : QueuesKept s (allLines.foldl startLine
        (offerReport (loadBank (decideBank s).1 (decideBank s).2) (.startup (decideBank s).2))) :=
      (((queuesKept_decideBank s).trans (queuesKept_loadBank _ _)).trans (queuesKept_offerReport _ _)).trans
        (queuesKept_foldl (fun u k => queuesKept_of_returnView (returnView_startLine u k)) _ _)
    obtain ⟨hb, -⟩ := queueInv_iff.mp (kept.inv h)
    unfold finishCheck
    generalize allLines.foldl startLine _ = u at hb ⊢
    exact queueInv_startIfIdle_both ⟨hb.index, hb.reports, hb.replies, fun hn => absurd rfl hn⟩ rfl
  · unfold endCheck
    rwa [if_pos hp]

end Start

/-! ## Every step -/

/-- Every occasion keeps the invariant of the queues and of the return lines. -/
theorem queueInv_of_occasion {s t : State} (h : QueueInv s) (ht : Occasion s t) : QueueInv t := by
  have view {u : State} (hu : returnView u = returnView s) : QueueInv u := queueInv_of_returnView h hu
  cases ht
  case nothing => exact h
  case fullReset => exact queueInv_resetPart s
  case resetRelease => exact queueInv_releaseReset h
  case checkEnd => exact queueInv_endCheck h
  case byte x b => exact queueInv_takeByte x b h
  case gap x => exact view (returnView_gapExceeded s x)
  case drainEnd x => exact view (returnView_drainEnds s x)
  case lossStep x => exact (queuesKept_lossTick s x).inv h
  case arbiterStep => exact view (returnView_arbiterTick s)
  case request r q => exact queueInv_takeRequest r q h
  case wordWrite r a v => exact queueInv_takeWordWrite r a v h
  case copyWord => exact (queuesKept_copyOne s).inv h
  case verifyWord => exact (queuesKept_verifyOne s).inv h
  case fadeStep o => exact (queuesKept_fadeTick s o).inv h
  case keyInput => exact view rfl
  case lineStep k => exact view (returnView_lineTick s k)
  case circuit k => exact (queuesKept_composeNext s k).inv h
  case frameEnd k => exact view (returnView_frameEnd s k)
  case returnStart x => exact (queuesKept_startIfIdle s x).inv h
  case returnEnd x htx =>
    obtain ⟨hb, hrest⟩ := queueInv_iff.mp h
    have hp := hb.running_of_sending htx
    exact queueInv_iff.mpr ⟨queueBounds_startFrame hb hp, fun _ y => atRest_startFrame (hrest hp y)⟩
  case parityFault a v =>
    unfold parityFaultAt
    split
    · exact view rfl
    · exact h

/-- Settles O58: a step does nothing or what its command brings about, and every occasion keeps the invariant. -/
theorem stepKeepsQueues : Obligations.StepKeepsQueues := by
  intro s t h ht
  rcases step_cases ht with rfl | ⟨rest, hocc⟩
  · exact h
  · exact queueInv_of_occasion (s := { s with pending := rest }) (queueInv_of_returnView h rfl) hocc

end Sys2Proof.Machine
end

section
/-! A WRITE (R138): its words are offered one by one from the index on, each on the state that the ones before it leave; what that
sequence of states keeps, and what it leaves in the store. -/

namespace Sys2Proof.Machine

/-! ## A word that holds its own value once it is taken -/

/-- A point of a curve that is stored (R115), or an address of a bank that is not active (R152). -/
def HoldsWord (s : State) (a : Nat) : Prop :=
  (0x3021 ≤ a ∧ a ≤ 0x3107) ∨ ∃ b off, (s.safeMode = true ∨ b ≠ s.active) ∧ off < 79683 ∧ a = bankBase b + off

section Word

variable {s t : State} {a : Nat} {v : Word}

theorem writeWord_curvePoint (h : 0x3021 ≤ a ∧ a ≤ 0x3107) : writeWord s a v = .taken (rewrite s a v) := by
  have ha : a = curveAddr ((a - 0x3000) / 33) ((a - 0x3000) % 33) := by simp only [curveAddr]; omega
  rw [ha]
  exact writeWord_curve (by omega) (by omega) (by omega)

theorem writeWord_staged {b : Bank} {off : Nat} (hb : s.safeMode = true ∨ b ≠ s.active) (hoff : off < 79683) :
    writeWord s (bankBase b + off) v = writeStaged s b off v := by
  have hactive : ¬ isActive s b = true := by rw [isActive_iff]; rcases hb with hb | hb <;> simp [hb]
  unfold writeWord
  rw [placeOf_bankBase b hoff]
  exact if_neg hactive

theorem stored_of_holdsWord (ha : HoldsWord s a) (h : writeWord s a v = .taken t) : stored t a = ⟨v, false⟩ := by
  rcases ha with ha | ⟨b, off, hb, hoff, rfl⟩
  · rw [writeWord_curvePoint ha] at h
    cases h
    exact stored_rewrite_self s a v
  · rw [writeWord_staged hb hoff] at h
    unfold writeStaged at h
    split at h
    · cases h
    · cases h
      exact stored_rewrite_self s _ v

/-- The banks do not overlap. -/
theorem bankBase_add_inj {b c : Bank} {i j : Nat} (hi : i < 79683) (hj : j < 79683) (h : bankBase b + i = bankBase c + j) :
    b = c ∧ i = j := by
  cases b <;> cases c <;> simp only [bankBase] at h <;> simp <;> omega

/-- The count of a region of the active bank is neither a point of a curve nor in a bank that is not active. -/
theorem not_holdsWord_of_regionCount {c : Nat} (h : RegionCountAt s a c) : ¬ HoldsWord s c := by
  obtain ⟨rfl, hs, g, hg, ha⟩ := h
  have hactive : a + 1 = bankBase s.active + (2564 + 8 * g) := by omega
  have hbase : 0x100000 ≤ bankBase s.active := by cases s.active <;> decide
  rintro (hcurve | ⟨b, off, hb, hoff, hc⟩)
  · omega
  · obtain ⟨rfl, -⟩ := bankBase_add_inj (by omega) hoff (hactive.symm.trans hc)
    simp [hs] at hb

end Word

/-! ## The sequence of states -/

section Words

variable {s : State} {a n : Nat} {ws : List Word} {u : Nat → State} (h0 : u 0 = s)
  (hstep : ∀ i < n, writeWord (u i) ((a + i) % 0x1000000) (ws.getD i 0) = .taken (u (i + 1)))

include h0 hstep

theorem words_frame {i : Nat} (hi : i ≤ n) : WordsFrame s (u i) := by
  induction i with
  | zero => rw [h0]; exact .refl s
  | succ i ih => exact (ih (by omega)).trans (wordTakes_of_taken (hstep i (by omega))).frame

theorem words_sameCues {i : Nat} (hi : i ≤ n) : SameCues s (u i) := by
  induction i with
  | zero => rw [h0]; exact sameCues_of_playbacks rfl
  | succ i ih => exact (ih (by omega)).trans (wordTakes_of_taken (hstep i (by omega))).sameCues

theorem words_safeMode {i : Nat} (hi : i ≤ n) : (u i).safeMode = s.safeMode :=
  (congrArg State.safeMode (words_frame h0 hstep hi) :)

theorem words_active {i : Nat} (hi : i ≤ n) : (u i).active = s.active :=
  (congrArg State.active (words_frame h0 hstep hi) :)

theorem words_regionCount {i c d : Nat} (hi : i ≤ n) (h : RegionCountAt (u i) c d) : RegionCountAt s c d := by
  unfold RegionCountAt at *
  rwa [words_safeMode h0 hstep hi, words_active h0 hstep hi] at h

/-- The store changes at the addresses of the words taken, and at the counts of regions whose bases they are. -/
theorem words_stored {i c : Nat} (hi : i ≤ n) (hc : stored (u i) c ≠ stored s c) :
    ∃ j < i, c = (a + j) % 0x1000000 ∨ RegionCountAt s ((a + j) % 0x1000000) c := by
  induction i with
  | zero => rw [h0] at hc; exact absurd rfl hc
  | succ i ih =>
    by_cases hlast : stored (u (i + 1)) c = stored (u i) c
    · obtain ⟨j, hj, hcase⟩ := ih (by omega) (hlast ▸ hc)
      exact ⟨j, by omega, hcase⟩
    · refine ⟨i, by omega, ((wordTakes_of_taken (hstep i (by omega))).stored hlast).imp_right ?_⟩
      exact words_regionCount h0 hstep (by omega)

/-- A word that holds its own value keeps it through the words after it, which lie at other addresses. -/
theorem words_hold {i m : Nat} (hn : n < 0x1000000) (hi : i < m) (hm : m ≤ n) (ha : HoldsWord s ((a + i) % 0x1000000)) :
    stored (u m) ((a + i) % 0x1000000) = ⟨ws.getD i 0, false⟩ := by
  induction m with
  | zero => omega
  | succ m ih =>
    have hword := hstep m (by omega)
    by_cases hlast : i = m
    · subst hlast
      refine stored_of_holdsWord ?_ hword
      unfold HoldsWord at *
      rwa [words_safeMode h0 hstep (by omega), words_active h0 hstep (by omega)]
    · rw [← ih (by omega) (by omega)]
      by_contra hc
      rcases (wordTakes_of_taken hword).stored hc with he | hcount
      · omega
      · exact not_holdsWord_of_regionCount (words_regionCount h0 hstep (by omega) hcount) ha

end Words

/-! ## The obligation -/

/-- Where no word is taken at the preferred link's address, none of those that a WRITE counts is the preferred link's. -/
theorem not_preferred_of_words {a n : Nat} (h : ∀ i < n, (a + i) % 0x1000000 ≠ 1) : ¬ (a ≤ 1 ∧ 1 < a + n) := by
  rintro ⟨hle, hlt⟩
  exact h (1 - a) (by omega) (by omega)

theorem exec_write {s : State} {r : Req} {ws : List Word} (h : takenFromOwner s r) (hlo : 1 ≤ ws.length) (hhi : ws.length ≤ 250) :
    exec (.write r ws) s = .next (answered (writeFrom s r.link (s.tableIndex.get r.link) ws).1 r 0x02
      (writeFrom s r.link (s.tableIndex.get r.link) ws).2.2 [byteOf (writeFrom s r.link (s.tableIndex.get r.link) ws).2.1]) :=
  congrArg _ (takeRequest_owner h (by simpa [Request.inRange] using And.intro hlo hhi))

/-- What the words leave, whether the last one offered is taken or refused: the state after the words taken, but for the offer of a
fault. -/
theorem words_end {s w : State} {res : Result} {v : Word} {a : Nat} (h : w = s ∨ writeWord s a v = .refused res w) :
    WordsFrame s w ∧ w.store = s.store ∧ SameCues s w := by
  rcases h with rfl | h
  · exact ⟨.refl w, rfl, sameCues_of_playbacks rfl⟩
  · have hr := wordRefused_of_refused h
    exact ⟨hr.frame, hr.store, hr.sameCues⟩

/-- Settles O21: the sequence of states of the words, each of which is taken in a way of `WordTakes`, then the arbiter's act. -/
theorem writeCountsWordsTaken : Obligations.WriteCountsWordsTaken := by
  intro s r ws h hlo hhi ha at_
  rw [exec_write h hlo hhi]
  obtain ⟨u, h0, hle, hstep, hall, hend⟩ := writeWords_spec s (s.tableIndex.get r.link) ws ha
  rcases hw : writeWords s (s.tableIndex.get r.link) ws with ⟨w, n, res⟩
  rw [writeFrom_of_words hw]
  rw [hw] at hle hstep hall hend
  dsimp only at hle hstep hall hend
  obtain ⟨hlast, hstore, hcues⟩ : WordsFrame (u n) w ∧ w.store = (u n).store ∧ SameCues (u n) w :=
    words_end (hle.eq_or_lt.imp (fun hn => (hall hn).2) hend)
  have hframe : WordsFrame s w := (words_frame h0 hstep le_rfl).trans hlast
  have hstored (c : Nat) : stored w c = stored (u n) c := congrFun (stored_congr hstore) c
  have hsame : SameCues s w := (words_sameCues h0 hstep le_rfl).trans hcues
  have hquiet (hm : w.working.sourceMode = s.working.sourceMode) (hn : ∀ i < n, at_ i ≠ 1) :
      actedOn s w (s.tableIndex.get r.link) n = w := actedOn_quiet hm (not_preferred_of_words hn)
  obtain ⟨arb, replies, tx, reports, mark, hacted⟩ : ∃ arb replies tx reports mark,
      actedOn s w (s.tableIndex.get r.link) n =
        { w with arb := arb, replies := replies, tx := tx, reports := reports, dropMark := mark } :=
    ⟨_, _, _, _, _, arbiterActs_actedOn s w _ n⟩
  have hindex : w.tableIndex = s.tableIndex := (congrArg State.tableIndex hframe :)
  rw [hacted] at hquiet ⊢
  refine ⟨n, res, u, w, _, rfl, hle, h0, hstep, hall, fun hn => ⟨(wordRefused_of_refused (hend hn)).1, hend hn⟩,
    by rw [hindex], fun hm hn => ?_, fun c hc => ?_, fun i hi hat => ?_, ?_⟩
  · rw [hquiet hm hn, hindex]
  · exact words_stored h0 hstep le_rfl fun he => hc ((hstored c).trans he)
  · exact (hstored _).trans (words_hold h0 hstep (by omega) hi le_rfl hat)
  · exact ⟨(congrArg State.pending hframe :), (congrArg State.takeOrder hframe :), (congrArg State.prevOut hframe :),
      (congrArg State.stackIndex hframe :), (congrArg State.safeMode hframe :), (congrArg State.active hframe :),
      (congrArg State.patchHold hframe :), (congrArg State.panel hframe :), hsame⟩

end Sys2Proof.Machine
end

section
/-! RESTART (R78, R146): the state that its actions leave, and the report of a table operation that it aborts. -/

namespace Sys2Proof.Machine

/-! ## A report offered to emptied queues -/

section Emptied

variable {u : State}

theorem startIfIdle_replies_empty {x : Link} (h : u.replies = ⟨[], []⟩) : (startIfIdle u x).replies = ⟨[], []⟩ := by
  rcases startIfIdle_cases u x with ⟨-, he⟩ | ⟨-, he⟩ <;> rw [he]
  · rcases startFrame_cases u x with ⟨_, _, hr, -⟩ | ⟨_, _, -, -, -, he⟩ | ⟨-, -, he⟩
    · rw [h, PerLink.get_pair] at hr; cases hr
    · rw [he]; exact h
    · rw [he]; exact h
  · exact h

theorem offerReport_replies_empty (k : ReportKind) (h : u.replies = ⟨[], []⟩) : (offerReport u k).replies = ⟨[], []⟩ :=
  startIfIdle_replies_empty (by simpa using h)

theorem offerReport_dropMark_empty (k : ReportKind) (h : u.reports = []) : (offerReport u k).dropMark = false := by
  rw [offerReport, startIfIdle_dropMark, enqueueReport_of_room k (by simp [h])]

/-- While the owner's line is sending, the report waits alone. -/
theorem offerReport_waits (k : ReportKind) (h : u.reports = []) (hm : u.dropMark = false)
    (hbusy : u.tx.get u.arb.owner ≠ none) : (offerReport u k).reports = [⟨k, false⟩] ∧ (offerReport u k).tx = u.tx := by
  rw [offerReport_of_busy k (.inr hbusy), enqueueReport_of_room k (by simp [h]), h, hm]
  exact ⟨rfl, rfl⟩

end Emptied

/-! ## The actions of a RESTART -/

/-- What RESTART leaves, but for the end of a VERIFY that it aborts and the report of an aborted operation. -/
def restartCleared (s : State) : State :=
  { s with playbacks := (clearFades s).playbacks, takeOrder := [], slot := .empty, patchHold := false,
           shadow := if s.safeMode then s.shadow else (loadShadow s).shadow, replies := ⟨[], []⟩, reports := [],
           dropMark := false, faultList := [], faultOverflow := false }

/-- The last VERIFY result, its address and the bank's verified flag as the abort of a VERIFY leaves them (R155, R160). -/
def verifyAborted (s : State) (b : Bank) : State :=
  { s with lastVerify := .aborted, lastVerifyAddr := 0, verified := s.verified.put b false }

section Restart

variable {s : State}

theorem restartPart_idle (h : s.slot = .empty) : restartPart s = restartCleared s := by
  cases s; subst h
  unfold restartPart restartCleared
  dsimp only [clearFades, abortOperation]
  split <;> rfl

theorem restartPart_copy {src dst n done : Nat} (h : s.slot = .copy src dst n done) :
    restartPart s = offerReport (restartCleared s) (.opDone .copy .aborted 0) := by
  cases s; subst h
  unfold restartPart restartCleared
  dsimp only [clearFades, abortOperation]
  congr 1
  split <;> rfl

theorem restartPart_verify {b : Bank} {pass : VerifyPass} {stale : Bool} {reads : Nat} (h : s.slot = .verify b pass stale reads) :
    restartPart s = offerReport (verifyAborted (restartCleared s) b) (.opDone .verify .aborted 0) := by
  cases s; subst h
  unfold restartPart restartCleared verifyAborted
  dsimp only [clearFades, abortOperation]
  congr 1
  split <;> rfl

theorem offerReport_cleared_frame (k : ReportKind) {u : State} (hreplies : u.replies = ⟨[], []⟩) (hreports : u.reports = [])
    (hmark : u.dropMark = false) :
    offerReport u k = { u with tx := (offerReport u k).tx, reports := (offerReport u k).reports } := by
  rw [offerReport_frame, offerReport_replies_empty k hreplies, offerReport_dropMark_empty k hreports, ← hreplies, ← hmark]

/-- Beyond its cleared state RESTART leaves the report of an aborted operation and the end of an aborted VERIFY alone. -/
theorem restartPart_frame (s : State) : restartPart s =
    { restartCleared s with lastVerify := (restartPart s).lastVerify, lastVerifyAddr := (restartPart s).lastVerifyAddr,
                            verified := (restartPart s).verified, tx := (restartPart s).tx,
                            reports := (restartPart s).reports } := by
  cases h : s.slot with
  | empty => rw [restartPart_idle h]
  | copy src dst n done => rw [restartPart_copy h, offerReport_cleared_frame _ rfl rfl rfl]
  | verify b pass stale reads => rw [restartPart_verify h, offerReport_cleared_frame _ rfl rfl rfl]; rfl

theorem isBound_of_read {p : PlaybackNo} (h : boundStack s p ≠ none) : isBound s p = (boundStack s p != some 0) := by
  unfold isBound
  cases hb : boundStack s p with
  | none => exact absurd hb h
  | some w => simp [bne]

theorem playbackAt_restartCleared (s : State) (p : PlaybackNo) :
    playbackAt (restartCleared s) p = clearedPlayback (isBound s p) := by
  simp [playbackAt, restartCleared, clearFades]

theorem shadowWord_restartCleared (hs : s.safeMode = false) {off : Nat} (h : 3 ≤ off ∧ off < 2627) :
    shadowWord (restartCleared s) off = (liveStored s off).val := by
  rw [← shadowWord_loadShadow s h]
  simp [shadowWord, restartCleared, hs]

end Restart

theorem exec_restart {s : State} {r : Req} (h : takenFromOwner s r) :
    exec (.restart r) s = .next (answered (restartPart s) r 0x50 .ok []) :=
  congrArg _ (takeRequest_owner h rfl)

/-- Settles O7: what every RESTART clears, and then what it does by the operation that was running. -/
theorem restartClears : Obligations.RestartClears := by
  intro s r h
  refine ⟨restartPart s, exec_restart h, ?_⟩
  have hframe := restartPart_frame s
  have hplaybacks : (restartPart s).playbacks = (restartCleared s).playbacks := (congrArg State.playbacks hframe :)
  have hshadow : (restartPart s).shadow = (restartCleared s).shadow := (congrArg State.shadow hframe :)
  refine ⟨fun p hp => ?_, (congrArg State.takeOrder hframe :), (congrArg State.patchHold hframe :),
    (congrArg State.slot hframe :), (congrArg State.replies hframe :), (congrArg State.dropMark hframe :),
    (congrArg State.faultList hframe :), (congrArg State.faultOverflow hframe :), fun hs off hlo hhi => ?_,
    fun hslot => ?_, fun src dst n done hslot hbusy => ?_, fun b pass stale reads hslot => ?_,
    (congrArg State.links hframe :), (congrArg State.arb hframe :), (congrArg State.lines hframe :),
    (congrArg State.prevOut hframe :), (congrArg State.tableIndex hframe :), (congrArg State.store hframe :),
    (congrArg State.working hframe :), (congrArg State.panel hframe :), (congrArg State.stackIndex hframe :),
    (congrArg State.active hframe :), (congrArg State.safeMode hframe :), (congrArg State.phase hframe :)⟩
  · rw [← isBound_of_read hp, ← playbackAt_restartCleared, playbackAt, playbackAt, hplaybacks]
  · rw [← shadowWord_restartCleared hs ⟨hlo, hhi⟩, shadowWord, shadowWord, hshadow]
  · rw [restartPart_idle hslot]
    exact ⟨rfl, rfl, rfl, rfl, rfl⟩
  · rw [restartPart_copy hslot]
    obtain ⟨hreports, htx⟩ := offerReport_waits (u := restartCleared s) (.opDone .copy .aborted 0) rfl rfl hbusy
    exact ⟨hreports, htx, offerReport_verified _ _, offerReport_lastVerify _ _⟩
  · rw [restartPart_verify hslot]
    exact ⟨offerReport_lastVerify _ _, offerReport_lastVerifyAddr _ _, offerReport_verified _ _,
      fun hbusy => offerReport_waits (u := verifyAborted (restartCleared s) b) _ rfl rfl hbusy⟩

end Sys2Proof.Machine
end

section
/-! The return lines (R142 to R145, R171): replies and reports wait or start their frames, and the bytes of the frames. -/

namespace Sys2Proof.Machine

/-! ## The bytes of a frame -/

theorem byteOf_mod (n : Nat) : byteOf (n % 65536) = byteOf n :=
  BitVec.eq_of_toNat_eq (by simp only [byteOf, BitVec.toNat_ofNat]; omega)

/-- A number below 65,536 in two bytes. -/
theorem wordBytes_wordOf (n : Nat) : wordBytes (wordOf n) = [byteOf (n % 65536 / 256), byteOf n] := by
  simp only [wordBytes, wordOf, BitVec.toNat_ofNat]
  rw [byteOf_mod]

/-- R171: a frame's type, length and payload are covered by its CRC-16. -/
theorem linkFrame_eq {typ : Byte} {payload : List Byte} (h : payload.length < 65536) : linkFrame typ payload =
    0xE7 :: (typ :: byteOf (payload.length / 256) :: byteOf payload.length :: payload) ++
      wordBytes (crc16 (typ :: byteOf (payload.length / 256) :: byteOf payload.length :: payload)) := by
  rw [linkFrame, wordBytes_wordOf, Nat.mod_eq_of_lt h]
  rfl

/-- A link in a report (R144). -/
theorem byteOf_linkCode (x : Link) : byteOf (linkCode x) = if x = .a then 0 else 1 := by cases x <;> rfl

/-! ## Frame starts -/

theorem PerLink.put_put {α : Type} (v : PerLink α) (x : Link) (m n : α) : (v.put x m).put x n = v.put x n := by
  cases x <;> rfl

section Starts

variable {s : State} {x : Link}

theorem startFrame_reply {r : Reply} {rest : List Reply} (h : s.replies.get x = r :: rest) : startFrame s x =
    { s with replies := s.replies.put x rest, tx := s.tx.put x (some (linkFrame 0x30 (replyPayload r))) } := by
  simp [startFrame, h]

theorem startFrame_report {r : Report} {rest : List Report} (h : s.replies.get x = []) (ho : s.arb.owner = x)
    (hr : s.reports = r :: rest) : startFrame s x =
    { s with reports := rest, tx := s.tx.put x (some (linkFrame 0x40 (reportPayload s.working.unit r))) } := by
  simp [startFrame, h, ho, hr]

theorem startFrame_idle (h : s.replies.get x = []) (hr : s.arb.owner = x → s.reports = []) :
    startFrame s x = { s with tx := s.tx.put x none } := by
  rcases startFrame_cases s x with ⟨_, _, h', -⟩ | ⟨_, _, -, ho, hr', -⟩ | ⟨-, -, he⟩
  · rw [h] at h'; cases h'
  · rw [hr ho] at hr'; cases hr'
  · exact he

/-- RETURN_FRAME_START on an IDLE line and RETURN_FRAME_END on one that is sending are frame starts. -/
theorem exec_returnFrame {i : Instr} (hp : s.phase = .running)
    (hi : (i = .returnFrameStart x ∧ s.tx.get x = none) ∨ (i = .returnFrameEnd x ∧ s.tx.get x ≠ none)) :
    exec i s = .next (startFrame s x) := by
  rcases hi with ⟨rfl, htx⟩ | ⟨rfl, htx⟩
  · exact congrArg _ (startIfIdle_of_idle hp htx)
  · exact if_neg htx

theorem exec_returnFrameStart_sending (htx : s.tx.get x ≠ none) : exec (.returnFrameStart x) s = .next s :=
  congrArg _ (startIfIdle_of_busy (.inr htx))

theorem exec_returnFrameEnd_idle (htx : s.tx.get x = none) : exec (.returnFrameEnd x) s = .next s := if_pos htx

end Starts

/-! ## Reports and replies -/

section Queued

variable {s : State} {r : Req} {code : Byte} {res : Result} {data : List Byte}

/-- On the owner's IDLE line the oldest report starts, which is the one offered where none waits (R143, R145). -/
theorem offerReport_idle {k : ReportKind} {q : Report} {rest : List Report} (hp : s.phase = .running)
    (htx : s.tx.get s.arb.owner = none) (hreplies : s.replies.get s.arb.owner = []) (hroom : s.reports.length < 32)
    (hq : s.reports ++ [⟨k, s.dropMark⟩] = q :: rest) : offerReport s k =
      { s with reports := rest, dropMark := false,
               tx := s.tx.put s.arb.owner (some (linkFrame 0x40 (reportPayload s.working.unit q))) } := by
  rw [offerReport, enqueueReport_of_room k hroom]
  exact startIfIdle_of_report (s := { s with reports := s.reports ++ [⟨k, s.dropMark⟩], dropMark := false }) hp htx hreplies
    rfl hq

/-- On a line that is sending a reply waits (R142). -/
theorem answered_sending (hu : r.unit ≠ 0) (htx : s.tx.get r.link ≠ none) : answered s r code res data =
    { s with replies := s.replies.put r.link (s.replies.get r.link ++ [⟨r.unit, r.tag, code, res, data⟩]) } :=
  (if_neg hu).trans (startIfIdle_of_busy (.inr htx))

/-- On an IDLE line its frame starts at once (R145). -/
theorem answered_idle (hp : s.phase = .running) (hu : r.unit ≠ 0) (htx : s.tx.get r.link = none)
    (hreplies : s.replies.get r.link = []) : answered s r code res data =
      { s with tx := s.tx.put r.link (some (linkFrame 0x30 (replyPayload ⟨r.unit, r.tag, code, res, data⟩))) } := by
  have hemptied : s.replies.put r.link [] = s.replies := by rw [← hreplies, PerLink.put_get_self]
  rw [answered, if_neg hu, queueReply,
    startIfIdle_of_idle (s := { s with replies := s.replies.put r.link _ }) hp htx, hreplies, List.nil_append,
    startFrame_reply (PerLink.get_put_self _ _ _)]
  simp only [PerLink.put_put, hemptied]

end Queued

/-- Settles O19, clause by clause. -/
theorem returnLinesSendFrames : Obligations.ReturnLinesSendFrames := by
  intro s x replyFrame reportFrame
  refine ⟨fun k hbusy => ⟨fun hroom => ?_, fun hfull => ?_⟩, fun k q rest hp htx hreplies hroom hq =>
    offerReport_idle hp htx hreplies hroom hq, fun unit k dropped => ?_, fun typ payload hlen => linkFrame_eq hlen,
    fun hp => ⟨fun r code res data hu => answered_broadcast s code res data hu,
      fun r code res data hu htx => answered_sending hu htx,
      fun r code res data hu htx hreplies => answered_idle hp hu htx hreplies, fun i hi => ?_,
      exec_returnFrameStart_sending, exec_returnFrameEnd_idle⟩⟩
  · rw [offerReport_of_busy k hbusy, enqueueReport_of_room k hroom]
  · rw [offerReport_of_busy k hbusy, enqueueReport_of_full k hfull]
  · cases k
    case cueDone p n label => simp only [reportPayload, reportData, wordBytes_wordOf]; rfl
    case linkLive y => simp only [reportPayload, reportData, byteOf_linkCode]
    case linkDown y => simp only [reportPayload, reportData, byteOf_linkCode]
    case handover old new cause => simp only [reportPayload, reportData, byteOf_linkCode]; cases cause <;> rfl
    case fault a => rfl
    case opDone op res a => cases op <;> cases res <;> rfl
    case switched b held => cases b <;> rfl
    case startup res => cases res <;> rfl
  · rw [exec_returnFrame hp hi]
    exact ⟨fun r rest hr => congrArg _ (startFrame_reply hr),
      fun r rest hreplies ho hr => congrArg _ (startFrame_report hreplies ho hr),
      fun hreplies hr => congrArg _ (startFrame_idle hreplies hr)⟩

end Sys2Proof.Machine
end

section
/-! The words of the active bank's tables (R150, R151, R154, R166): their check against the shadow, and what a taken one leaves in
the shadow, in the live tables and in the fault list. -/

namespace Sys2Proof.Machine

/-! ## The check of a table word (R151) -/

section Check

variable {shadow : Nat → Word} {v : Word} {r j : Nat}

theorem tableCheck_channel {ch : Nat} (hlo : 1 ≤ ch) (hhi : ch ≤ 512) :
    tableCheck shadow (2 + ch) v = if v.toNat < 4 then some [(2 + ch, v)] else none := by
  rw [tableCheck, if_pos (by omega)]
  simp only [channelEntryOk, decide_eq_true_eq]

theorem tableCheck_patchChannel {c : Nat} (hlo : 1 ≤ c) (hhi : c ≤ 1024) :
    tableCheck shadow (513 + 2 * c) v = if v.toNat ≤ 512 then some [(513 + 2 * c, v)] else none := by
  rw [tableCheck, if_neg (by omega), if_pos (by omega), if_pos (by omega)]

theorem tableCheck_proportion {c : Nat} (hlo : 1 ≤ c) (hhi : c ≤ 1024) :
    tableCheck shadow (514 + 2 * c) v = if v.toNat ≤ 255 then some [(514 + 2 * c, v)] else none := by
  rw [tableCheck, if_neg (by omega), if_pos (by omega), if_neg (by omega)]

/-- The first word of the region that word `j` of region `r` lies in, as the check finds it. -/
theorem regionFirst_eq (hr : 1 ≤ r) (hj : j < 8) : 2563 + 8 * ((2555 + 8 * r + j - 2563) / 8) = 2555 + 8 * r := by omega

/-- Which word of its region word `j` of region `r` is, as the check finds it. -/
theorem regionIndex_eq (hr : 1 ≤ r) (hj : j < 8) : (2555 + 8 * r + j - 2563) % 8 = j := by omega

theorem tableCheck_regionBase (hr : 1 ≤ r) : tableCheck shadow (2555 + 8 * r) v =
    if v.toNat = 0 ∨ 1024 < v.toNat then none
    else if 1025 - v.toNat < (shadow (2555 + 8 * r + 1)).toNat then
      some [(2555 + 8 * r, v), (2555 + 8 * r + 1, wordOf (1025 - v.toNat))]
    else some [(2555 + 8 * r, v)] := by
  have hfirst : 2563 + 8 * ((2555 + 8 * r - 2563) / 8) = 2555 + 8 * r := regionFirst_eq (j := 0) hr (by omega)
  have hindex : (2555 + 8 * r - 2563) % 8 = 0 := regionIndex_eq (j := 0) hr (by omega)
  rw [tableCheck, if_neg (by omega), if_neg (by omega)]
  simp only [hfirst, hindex]
  by_cases hv : 1 ≤ v.toNat ∧ v.toNat ≤ 1024
  · rw [if_pos hv, if_neg (show ¬ (v.toNat = 0 ∨ 1024 < v.toNat) by omega)]
  · rw [if_neg hv, if_pos (show v.toNat = 0 ∨ 1024 < v.toNat by omega)]

theorem tableCheck_regionCount (hr : 1 ≤ r) : tableCheck shadow (2555 + 8 * r + 1) v =
    some [(2555 + 8 * r + 1, regionCountTaken (shadow (2555 + 8 * r)) v)] := by
  rw [tableCheck, if_neg (by omega), if_neg (by omega)]
  simp only [regionFirst_eq (j := 1) hr (by omega), regionIndex_eq (j := 1) hr (by omega)]

theorem regionFlagsOk_iff {echoBase : Word} : regionFlagsOk v echoBase = true ↔
    v.toNat < 64 ∧ (v.getLsbD 5 = true → 1 ≤ echoBase.toNat ∧ echoBase.toNat ≤ 1024) := by
  simp only [regionFlagsOk, regionEcho, Bool.and_eq_true, Bool.or_eq_true, decide_eq_true_eq, Bool.not_eq_true',
    imp_iff_not_or, Bool.not_eq_true]

theorem tableCheck_regionFlags (hr : 1 ≤ r) : tableCheck shadow (2555 + 8 * r + 2) v =
    if v.toNat < 64 ∧
        (v.getLsbD 5 = true → 1 ≤ (shadow (2555 + 8 * r + 4)).toNat ∧ (shadow (2555 + 8 * r + 4)).toNat ≤ 1024) then
      some [(2555 + 8 * r + 2, v)]
    else none := by
  rw [tableCheck, if_neg (by omega), if_neg (by omega)]
  simp only [regionFirst_eq (j := 2) hr (by omega), regionIndex_eq (j := 2) hr (by omega), regionFlagsOk_iff]

theorem tableCheck_echoBase (hr : 1 ≤ r) : tableCheck shadow (2555 + 8 * r + 4) v =
    if (1 ≤ v.toNat ∧ v.toNat ≤ 1024) ∨ (v = 0 ∧ (shadow (2555 + 8 * r + 2)).getLsbD 5 = false) then
      some [(2555 + 8 * r + 4, v)]
    else none := by
  rw [tableCheck, if_neg (by omega), if_neg (by omega)]
  simp only [regionFirst_eq (j := 4) hr (by omega), regionIndex_eq (j := 4) hr (by omega), regionEcho, Bool.not_eq_true']

/-- The park level, the response, the preheat and the limit take any value. -/
theorem tableCheck_regionLevel (hr : 1 ≤ r) (hj : j = 3 ∨ j = 5 ∨ j = 6 ∨ j = 7) :
    tableCheck shadow (2555 + 8 * r + j) v = some [(2555 + 8 * r + j, v)] := by
  rw [tableCheck, if_neg (by omega), if_neg (by omega)]
  simp only [regionIndex_eq (j := j) hr (by omega)]
  rcases hj with rfl | rfl | rfl | rfl <;> rfl

/-- Settles O29, by the kind of the word. -/
theorem tableWordIsChecked : Obligations.TableWordIsChecked := by
  intro shadow v
  refine ⟨fun ch => tableCheck_channel, fun c hlo hhi => ⟨tableCheck_patchChannel hlo hhi, tableCheck_proportion hlo hhi⟩,
    fun r hr _ => ⟨tableCheck_regionBase hr, fun hbase => ?_, fun hbase => ?_, tableCheck_regionFlags hr,
      tableCheck_echoBase hr, fun j => tableCheck_regionLevel hr⟩⟩
  · rw [tableCheck_regionCount hr, regionCountTaken, if_pos hbase]
  · exact ⟨_, tableCheck_regionCount hr⟩

/-- A table word that is taken changes its own offset, and the base of a region perhaps the count after it. -/
theorem tableCheck_cases {off : Nat} {ws : List (Nat × Word)} (h : tableCheck shadow off v = some ws) :
    (∃ w, ws = [(off, w)]) ∨ ∃ w w', ws = [(off, w), (off + 1, w')] := by
  have alone {c : Prop} [Decidable c] {w : Word} (h : (if c then some [(off, w)] else none) = some ws) :
      ∃ w, ws = [(off, w)] := by
    split at h
    · exact ⟨w, (Option.some.inj h).symm⟩
    · cases h
  unfold tableCheck at h
  split at h
  · exact .inl (alone h)
  · split at h
    · split at h <;> exact .inl (alone h)
    · dsimp only at h
      split at h
      case h_1 hbase =>
        split at h
        · split at h
          · have hfirst : 2563 + 8 * ((off - 2563) / 8) = off := by omega
            rw [hfirst] at h
            exact .inr ⟨_, _, (Option.some.inj h).symm⟩
          · exact .inl ⟨_, (Option.some.inj h).symm⟩
        · cases h
      case h_2 => exact .inl ⟨_, (Option.some.inj h).symm⟩
      case h_5 => exact .inl ⟨_, (Option.some.inj h).symm⟩
      all_goals exact .inl (alone h)

/-- The words that a taken one changes lie at different offsets. -/
theorem tableCheck_nodup {off : Nat} {ws : List (Nat × Word)} (h : tableCheck shadow off v = some ws) :
    (ws.map Prod.fst).Nodup := by
  rcases tableCheck_cases h with ⟨w, rfl⟩ | ⟨w, w', rfl⟩ <;> simp

end Check

/-! ## Words taken into the tables (R150, R154, R166) -/

/-- Several writes to a table leave every other number as it was. -/
theorem tget_writes_of_not_mem {α : Type} [DecidableEq α] (d : Nat → α) (ws : List (Nat × α)) (t : Table α) {a : Nat}
    (h : ∀ w ∈ ws, w.1 ≠ a) : tget d (ws.foldl (fun t w => tset d t w.1 w.2) t) a = tget d t a := by
  induction ws generalizing t with
  | nil => rfl
  | cons w ws ih =>
    rw [List.foldl_cons, ih _ fun w' hw => h w' (by simp [hw]), tget_tset_of_ne _ _ _ (Ne.symm (h w (by simp)))]

/-- Where the numbers written differ, each reads as its value. -/
theorem tget_writes_of_mem {α : Type} [DecidableEq α] (d : Nat → α) (ws : List (Nat × α)) (t : Table α)
    (hn : (ws.map Prod.fst).Nodup) {w : Nat × α} (hw : w ∈ ws) :
    tget d (ws.foldl (fun t w => tset d t w.1 w.2) t) w.1 = w.2 := by
  induction ws generalizing t with
  | nil => cases hw
  | cons v ws ih =>
    rw [List.map_cons, List.nodup_cons] at hn
    rw [List.foldl_cons]
    rcases List.mem_cons.mp hw with rfl | hw
    · rw [tget_writes_of_not_mem d ws _ fun u hu he => hn.1 (List.mem_map.mpr ⟨u, hu, he⟩), tget_tset_self]
    · exact ih _ hn.2 hw

/-- Rewritten words leave the fault list, and no others (R166). -/
theorem rewriteAll_faultList (s : State) (ws : List (Nat × Word)) :
    (rewriteAll s ws).faultList = s.faultList.filter fun a => ws.all fun w => a != w.1 := by
  induction ws generalizing s with
  | nil => simp [rewriteAll]
  | cons w ws ih =>
    rw [show rewriteAll s (w :: ws) = rewriteAll (rewrite s w.1 w.2) ws from rfl, ih, rewrite_faultList, List.filter_filter]
    congr 1
    funext a
    simp [Bool.and_comm, bne, beq_eq_decide]

section Taken

variable {s : State} {ws : List (Nat × Word)}

theorem takeActive_held (h : s.patchHold = true) : takeActive s ws = writeShadow s ws := by
  have h' : (writeShadow s ws).patchHold = true := h
  simp only [takeActive, h', if_true]

theorem takeActive_live (h : s.patchHold = false) : takeActive s ws =
    clearVerified (rewriteAll (writeShadow s ws) (ws.map fun w => (bankBase s.active + w.1, w.2))) s.active := by
  have h' : ¬ (writeShadow s ws).patchHold = true := by rw [show (writeShadow s ws).patchHold = false from h]; decide
  exact if_neg h'

/-- With hold on or off, the words are written to the shadow. -/
theorem takeActive_shadow (s : State) (ws : List (Nat × Word)) : (takeActive s ws).shadow = (writeShadow s ws).shadow := by
  cases h : s.patchHold with
  | true => rw [takeActive_held h]
  | false => rw [takeActive_live h, rewriteAll_frame]; rfl

theorem shadowWord_takeActive_of_not_mem {off : Nat} (h : ∀ w, (off, w) ∉ ws) :
    shadowWord (takeActive s ws) off = shadowWord s off := by
  rw [shadowWord, takeActive_shadow]
  exact tget_writes_of_not_mem zeroWord ws s.shadow fun w hw he => h w.2 (he ▸ hw)

theorem shadowWord_takeActive_of_mem (hn : (ws.map Prod.fst).Nodup) {w : Nat × Word} (hw : w ∈ ws) :
    shadowWord (takeActive s ws) w.1 = w.2 := by
  rw [shadowWord, takeActive_shadow]
  exact tget_writes_of_mem zeroWord ws s.shadow hn hw

/-- With hold off, the live tables hold the words with good parity. -/
theorem stored_takeActive_of_mem (hhold : s.patchHold = false) (hn : (ws.map Prod.fst).Nodup) {w : Nat × Word} (hw : w ∈ ws) :
    stored (takeActive s ws) (bankBase s.active + w.1) = ⟨w.2, false⟩ := by
  rw [takeActive_live hhold]
  refine stored_rewriteAll_of_mem (writeShadow s ws) _ ?_ (List.mem_map_of_mem hw)
  have hshifted := hn.map (add_right_injective (bankBase s.active))
  rw [List.map_map] at hshifted ⊢
  exact hshifted

theorem faultList_takeActive (hhold : s.patchHold = false) : (takeActive s ws).faultList =
    s.faultList.filter fun a => ws.all fun w => a != bankBase s.active + w.1 := by
  rw [takeActive_live hhold]
  refine (rewriteAll_faultList (writeShadow s ws) _).trans ?_
  simp only [List.all_map]
  rfl

theorem verified_takeActive (hhold : s.patchHold = false) :
    (takeActive s ws).verified = s.verified.put s.active false := by
  rw [takeActive_live hhold, rewriteAll_frame]
  rfl

end Taken

/-! ## A word offered to the active bank (R150) -/

section Offered

variable {s : State} {r : Req} {a off : Nat} {v : Word}

theorem exec_activeBankWrite (hs : s.safeMode = false) (hoff : off < 79683) :
    exec (.activeBankWrite r off v) s = .next (takeWordWrite s r (bankBase s.active + off) v) := if_pos ⟨hs, hoff⟩

theorem writeWord_active (hs : s.safeMode = false) (hoff : off < 79683) :
    writeWord s (bankBase s.active + off) v = writeActive s off v := by
  rw [writeWord, placeOf_bankBase _ hoff]
  exact if_pos (isActive_iff.mpr ⟨hs, rfl⟩)

theorem bankBase_add_lt (b : Bank) (hoff : off < 79683) : bankBase b + off < 0x1000000 := by
  cases b <;> simp only [bankBase] <;> omega

theorem bankBase_add_ne_preferred (b : Bank) (off : Nat) : bankBase b + off ≠ 1 := by
  cases b <;> simp only [bankBase] <;> omega

theorem writeActive_outside (h : off < 3 ∨ 2627 ≤ off) : writeActive s off v = .refused .activeBank s := by
  have hout : ¬ isTableOff off = true := by rw [isTableOff_iff]; omega
  exact if_pos (by simpa using hout)

/-- A word of the tables passes row 1 of R150. -/
theorem not_outside (hlo : 3 ≤ off) (hhi : off < 2627) : ¬ (!isTableOff off) = true := by
  rw [isTableOff_iff.mpr ⟨hlo, hhi⟩]
  decide

theorem writeActive_protected (h : 515 ≤ off ∧ off < 2563)
    (hp : protectedCircuit s ((off - 515) / 2 + 1) = .ok true) : writeActive s off v = .refused .protect s := by
  rw [writeActive, if_neg (not_outside (by omega) (by omega)), if_pos h, hp]

theorem writeActive_faulted {f : Nat} (h : 515 ≤ off ∧ off < 2563)
    (hp : protectedCircuit s ((off - 515) / 2 + 1) = .error f) : writeActive s off v = .refused .fault (offerFault s f) := by
  rw [writeActive, if_neg (not_outside (by omega) (by omega)), if_pos h, hp]

/-- A word that no row before the last refuses comes to the check of R151. -/
theorem writeActive_checked (hlo : 3 ≤ off) (hhi : off < 2627)
    (h : ¬ (515 ≤ off ∧ off < 2563) ∨ protectedCircuit s ((off - 515) / 2 + 1) = .ok false) :
    writeActive s off v = checkActive s off v := by
  rw [writeActive, if_neg (not_outside hlo hhi)]
  by_cases hpatch : 515 ≤ off ∧ off < 2563
  · rw [if_pos hpatch, h.resolve_left (not_not.mpr hpatch)]
  · rw [if_neg hpatch]

theorem checkActive_refused (h : tableCheck (shadowWord s) off v = none) : checkActive s off v = .refused .range s := by
  rw [checkActive, h]

theorem checkActive_taken {ws : List (Nat × Word)} (h : tableCheck (shadowWord s) off v = some ws) :
    checkActive s off v = .taken (takeActive s ws) := by
  rw [checkActive, h]

/-- A WRITE of one word whose check meets a fault. -/
theorem takeWordWrite_faulted {res : Result} {f : Nat} (h : takenFromOwner s r) (ha : a < 0x1000000)
    (hw : writeWord s a v = .refused res (offerFault s f)) :
    takeWordWrite s r a v =
      answered { offerFault s f with tableIndex := s.tableIndex.put r.link a } r 0x02 res [0] := by
  have hwords : writeWords s a [v] = (offerFault s f, 0, res) := by simp [writeWords, hw]
  rw [takeWordWrite_owner _ _ h, writeFrom_of_words hwords, actedOn_quiet (by rw [offerFault_working]) (by omega),
    Nat.add_zero, Nat.mod_eq_of_lt ha, offerFault_tableIndex]
  rfl

/-- A WRITE of one word that the active bank takes. -/
theorem takeWordWrite_active {ws : List (Nat × Word)} (h : takenFromOwner s r)
    (hw : writeWord s (bankBase s.active + off) v = .taken (takeActive s ws)) :
    takeWordWrite s r (bankBase s.active + off) v = answered
      { takeActive s ws with tableIndex := s.tableIndex.put r.link (bankBase s.active + off + 1) } r 0x02 .ok [1] :=
  takeWordWrite_quiet h hw (by rw [takeActive_frame]) (bankBase_add_ne_preferred _ _) (by rw [takeActive_frame])

end Offered

/-- Settles O28: the rows of R150 in turn, and what the words of a taken one leave. -/
theorem activeBankWordIsDecided : Obligations.ActiveBankWordIsDecided := by
  intro s r off v h hs hoff a refused isPatch protection
  have hword : writeWord s a v = writeActive s off v := writeWord_active hs hoff
  have ha : a < 0x1000000 := bankBase_add_lt s.active hoff
  rw [show exec (.activeBankWrite r off v) s = .next (takeWordWrite s r a v) from exec_activeBankWrite hs hoff]
  refine ⟨fun hout => ?_, fun hpatch hp => ?_, fun hpatch f hp => ?_, fun hlo hhi hp hcheck => ?_,
    fun hlo hhi hp ws hcheck => ?_⟩
  · exact congrArg _ (takeWordWrite_refused h ha (hword.trans (writeActive_outside hout)))
  · exact congrArg _ (takeWordWrite_refused h ha (hword.trans (writeActive_protected hpatch hp)))
  · exact congrArg _ (takeWordWrite_faulted h ha (hword.trans (writeActive_faulted hpatch hp)))
  · exact congrArg _ (takeWordWrite_refused h ha
      (hword.trans ((writeActive_checked hlo hhi hp).trans (checkActive_refused hcheck))))
  · have hn := tableCheck_nodup hcheck
    refine ⟨_, congrArg _ (takeWordWrite_active h
        (hword.trans ((writeActive_checked hlo hhi hp).trans (checkActive_taken hcheck)))),
      fun o w hw => ⟨shadowWord_takeActive_of_mem hn hw, fun hhold => stored_takeActive_of_mem hhold hn hw⟩,
      fun o ho => shadowWord_takeActive_of_not_mem ho, fun b hb => ?_, fun hhold => ?_,
      fun hhold => ⟨verified_takeActive hhold, faultList_takeActive hhold⟩, ?_⟩
    · by_contra hne
      obtain ⟨w, hw, rfl⟩ := stored_takeActive hne
      exact hb w.1 w.2 hw rfl
    · rw [takeActive_held hhold]
      exact ⟨rfl, rfl, rfl⟩
    · rw [takeActive_frame]

end Sys2Proof.Machine
end

section
/-! A word of a staged bank (R152, R154, R160), and HOLD, DISCARD and APPLY of the patch hold (R153, R154, R166). -/

namespace Sys2Proof.Machine

/-! ## STAGED_BANK_WRITE (R152) -/

section Staged

variable {s : State} {r : Req} {b : Bank} {off : Nat} {v : Word}

theorem exec_stagedBankWrite (hb : s.safeMode = true ∨ b ≠ s.active) (hoff : off < 79683) :
    exec (.stagedBankWrite r b off v) s = .next (takeWordWrite s r (bankBase b + off) v) := by
  refine if_pos ⟨?_, hoff⟩
  rw [Bool.eq_false_iff, ne_eq, isActive_iff]
  rintro ⟨hs, hactive⟩
  rcases hb with h | h
  · rw [hs] at h; cases h
  · exact h hactive

theorem inCopyDestination_iff {sl : Slot} {a : Nat} : inCopyDestination sl a = true ↔
    ∃ src dst n done, sl = .copy src dst n done ∧ dst ≤ a ∧ a < dst + n := by
  cases sl <;> simp [inCopyDestination]

theorem writeStaged_busy (h : inCopyDestination s.slot (bankBase b + off) = true) :
    writeStaged s b off v = .refused .busy s := if_pos h

theorem writeStaged_taken (h : ¬ inCopyDestination s.slot (bankBase b + off) = true) : writeStaged s b off v =
    .taken { clearVerified (rewrite s (bankBase b + off) v) b with slot := markStale s.slot b } := if_neg h

/-- A VERIFY of the bank is marked stale, and one of the other bank keeps its mark. -/
theorem markStale_verify (b b' : Bank) (pass : VerifyPass) (stale : Bool) (reads : Nat) :
    markStale (.verify b' pass stale reads) b = .verify b' pass (if b' = b then true else stale) reads := by
  by_cases h : b' = b
  · simp [markStale, h]
  · simp [markStale, h, Ne.symm h]

end Staged

/-- Settles O30, by whether the word lies inside a running COPY's destination. -/
theorem stagedBankWordIsTaken : Obligations.StagedBankWordIsTaken := by
  intro s r b off v h hb hoff a
  have hword : writeWord s a v = writeStaged s b off v := writeWord_staged hb hoff
  rw [show exec (.stagedBankWrite r b off v) s = .next (takeWordWrite s r a v) from exec_stagedBankWrite hb hoff]
  refine ⟨fun src dst n done hslot hlo hhi => ?_, fun hout => ?_⟩
  · have hin : inCopyDestination s.slot a = true := inCopyDestination_iff.mpr ⟨src, dst, n, done, hslot, hlo, hhi⟩
    exact congrArg _ (takeWordWrite_refused h (bankBase_add_lt b hoff) (hword.trans (writeStaged_busy hin)))
  · have hfree : ¬ inCopyDestination s.slot a = true := by
      rw [inCopyDestination_iff]
      rintro ⟨src, dst, n, done, hslot, hlo, hhi⟩
      have := hout src dst n done hslot
      omega
    rw [takeWordWrite_quiet h (hword.trans (writeStaged_taken hfree)) rfl (bankBase_add_ne_preferred b off) rfl]
    cases hslot : s.slot with
    | empty => rfl
    | copy src dst n done => rfl
    | verify b' pass stale reads => rw [markStale_verify]; rfl

/-! ## HOLD, DISCARD and APPLY (R153) -/

section Hold

variable {s : State} {r : Req} {n : Nat}

theorem exec_hold (h : takenFromOwner s r) :
    exec (.hold r) s = .next (answered (holdPatch s).1 r 0x10 (holdPatch s).2 []) :=
  congrArg _ (takeRequest_owner h rfl)

theorem exec_discard (h : takenFromOwner s r) :
    exec (.discard r) s = .next (answered (discardPatch s).1 r 0x12 (discardPatch s).2 []) :=
  congrArg _ (takeRequest_owner h rfl)

theorem exec_apply (h : takenFromOwner s r) :
    exec (.apply r) s = .next (answered (answerApply s).state r 0x11 (answerApply s).result (answerApply s).data) :=
  congrArg _ (takeRequest_owner h rfl)

theorem holdPatch_safe (hs : s.safeMode = true) : holdPatch s = (s, .state) := if_pos hs

theorem holdPatch_taken (hs : ¬ s.safeMode = true) : holdPatch s = ({ s with patchHold := true }, .ok) := if_neg hs

theorem discardPatch_safe (hs : s.safeMode = true) : discardPatch s = (s, .state) := if_pos hs

theorem discardPatch_taken (hs : ¬ s.safeMode = true) :
    discardPatch s = ({ loadShadow s with patchHold := false }, .ok) := if_neg hs

/-- The number in the reply of a refused APPLY is a free value (log 4). -/
theorem answerApply_safe (hs : s.safeMode = true) :
    answerApply s = ⟨{ s with freeDraws := s.freeDraws + 1 }, .state, wordBytes (Config.freeWord s.freeDraws)⟩ := by
  rw [answerApply, show applyPatch s = (s, .state, 0) from if_pos hs]
  rfl

theorem mem_tableOffs {off : Nat} : off ∈ tableOffs ↔ 3 ≤ off ∧ off < 2627 := by
  rw [tableOffs, List.mem_range'_1]

/-- The rewrites of a taken APPLY: every live table word, with the value of its shadow word. -/
def shadowWords (s : State) : List (Nat × Word) := tableOffs.map fun off => (bankBase s.active + off, shadowWord s off)

theorem mem_shadowWords {w : Nat × Word} : w ∈ shadowWords s ↔
    ∃ off, 3 ≤ off ∧ off < 2627 ∧ w = (bankBase s.active + off, shadowWord s off) := by
  rw [shadowWords, List.mem_map]
  refine exists_congr fun off => ?_
  rw [mem_tableOffs, and_assoc, eq_comm]

theorem shadowWords_nodup (s : State) : ((shadowWords s).map Prod.fst).Nodup := by
  rw [shadowWords, List.map_map, tableOffs]
  refine List.Nodup.map (fun i j hij => ?_) List.nodup_range'
  exact Nat.add_left_cancel hij

/-- An address outside the live tables is none of those rewritten. -/
theorem ne_of_mem_shadowWords {a : Nat} (h : a < bankBase s.active + 3 ∨ bankBase s.active + 2627 ≤ a) {w : Nat × Word}
    (hw : w ∈ shadowWords s) : w.1 ≠ a := by
  obtain ⟨off, hlo, hhi, rfl⟩ := mem_shadowWords.mp hw
  dsimp only
  omega

/-- What a taken APPLY leaves, by its rewrites `ws` and by the number `n` of live words that differed from the shadow or held
a fault. -/
def applied (s : State) (ws : List (Nat × Word)) (n : Nat) : State :=
  { rewriteAll s ws with
    verified := if n = 0 then s.verified else s.verified.put s.active false, patchHold := false }

theorem applied_frame (s : State) (ws : List (Nat × Word)) (n : Nat) : applied s ws n = { s with
    store := (applied s ws n).store, faultList := (applied s ws n).faultList, verified := (applied s ws n).verified,
    patchHold := false } := by
  rw [applied, rewriteAll_frame]

theorem stored_applied (s : State) (ws : List (Nat × Word)) (n : Nat) : stored (applied s ws n) = stored (rewriteAll s ws) :=
  stored_congr rfl

theorem applyPatch_taken (hs : ¬ s.safeMode = true) :
    applyPatch s = (applied s (shadowWords s) (differing s), .ok, differing s) := by
  rw [applyPatch, if_neg hs, shadowWords]
  generalize differing s = n
  generalize tableOffs.map (fun off => (bankBase s.active + off, shadowWord s off)) = ws
  dsimp only
  rw [applied, rewriteAll_frame]
  split <;> rfl

theorem answerApply_taken (hs : ¬ s.safeMode = true) :
    answerApply s = ⟨applied s (shadowWords s) (differing s), .ok, wordBytes (wordOf (differing s))⟩ := by
  rw [answerApply, applyPatch_taken hs]
  rfl

/-! The list of the rewrites stands as a variable in what follows: that it is `shadowWords s` is used through its members alone,
since a proof by computation would run through all 2,624 of them. -/

section Applied

variable {ws : List (Nat × Word)} (hws : ws = shadowWords s)

include hws

theorem stored_applied_table {off : Nat} (hlo : 3 ≤ off) (hhi : off < 2627) :
    stored (applied s ws n) (bankBase s.active + off) = ⟨shadowWord s off, false⟩ := by
  have hn : (ws.map Prod.fst).Nodup := hws ▸ shadowWords_nodup s
  have hw : (bankBase s.active + off, shadowWord s off) ∈ ws := hws ▸ mem_shadowWords.mpr ⟨off, hlo, hhi, rfl⟩
  rw [stored_applied]
  exact stored_rewriteAll_of_mem s ws hn hw

theorem stored_applied_outside {a : Nat} (h : a < bankBase s.active + 3 ∨ bankBase s.active + 2627 ≤ a) :
    stored (applied s ws n) a = stored s a := by
  rw [stored_applied]
  exact stored_rewriteAll_of_not_mem s ws fun _ hw => ne_of_mem_shadowWords h (hws ▸ hw)

theorem mem_faultList_applied {a : Nat} : a ∈ (applied s ws n).faultList ↔
    a ∈ s.faultList ∧ (a < bankBase s.active + 3 ∨ bankBase s.active + 2627 ≤ a) := by
  rw [show (applied s ws n).faultList = (rewriteAll s ws).faultList from rfl, rewriteAll_faultList, List.mem_filter,
    List.all_eq_true]
  refine and_congr_right fun _ =>
    ⟨fun h => ?_, fun h w hw => bne_iff_ne.mpr (ne_of_mem_shadowWords h (hws ▸ hw)).symm⟩
  by_contra hin
  have hw : (a, shadowWord s (a - bankBase s.active)) ∈ ws := by
    rw [hws]
    refine mem_shadowWords.mpr ⟨a - bankBase s.active, by omega, by omega, ?_⟩
    rw [Nat.add_sub_cancel' (by omega)]
  simpa using h _ hw

end Applied

end Hold

/-- Settles O31: each request in safe mode, and out of it. -/
theorem patchHoldRequests : Obligations.PatchHoldRequests := by
  intro s r h n
  rw [exec_hold h, exec_discard h, exec_apply h]
  refine ⟨fun hs => ?_, fun hs => ?_⟩
  · rw [holdPatch_safe hs, discardPatch_safe hs, answerApply_safe hs]
    exact ⟨rfl, rfl, _, _, rfl⟩
  · replace hs : ¬ s.safeMode = true := by rw [hs]; decide
    have hn : differing s = n := rfl
    obtain ⟨ws, hws⟩ : ∃ ws, ws = shadowWords s := ⟨_, rfl⟩
    rw [holdPatch_taken hs, discardPatch_taken hs, answerApply_taken hs, hn, ← hws]
    clear_value n
    exact ⟨rfl, ⟨_, rfl, rfl, fun off hlo hhi => shadowWord_loadShadow s ⟨hlo, hhi⟩⟩, applied s ws n, rfl,
      fun off hlo hhi => stored_applied_table hws hlo hhi, fun a ha => stored_applied_outside hws ha,
      fun a => mem_faultList_applied hws, rfl, applied_frame s ws n⟩

end Sys2Proof.Machine
end

section
/-! COPY and VERIFY (R155 to R160, R172): the rows that decide them, their words one by one, and their ends. -/

namespace Sys2Proof.Machine

/-! ## Ranges of the table space (R140, R156) -/

/-- Whether an address lies in one of the areas listed. -/
def InAreas (l : List (Nat × Nat)) (a : Nat) : Prop := ∃ r ∈ l, r.1 ≤ a ∧ a ≤ r.2

theorem mapped_iff {a : Nat} : mapped a = true ↔ InAreas areas a := by
  simp only [InAreas, areas, List.mem_cons, List.not_mem_nil, or_false, exists_eq_or_imp, exists_eq_left]
  unfold mapped placeOf
  split <;> rename_i h
  · repeat (split at h; cases h)
    simp only [Bool.false_eq_true, false_iff]
    omega
  · simp only [true_iff]
    by_contra hn
    refine h ?_
    iterate 2 rw [if_neg (by omega)]
    rw [dif_neg (by omega)]
    iterate 5 rw [if_neg (by omega)]

/-- Areas that rise and do not overlap. -/
def Rising (l : List (Nat × Nat)) : Prop := l.Pairwise fun r r' => r.2 < r'.1

/-- How far a run of addresses in the areas goes on from `a`. -/
def runUpTo (l : List (Nat × Nat)) (a : Nat) : Nat := l.foldl (fun e r => if r.1 ≤ e ∧ e ≤ r.2 then r.2 + 1 else e) a

/-- The run from `a` reaches every address up to its end, which is in no area. -/
theorem runUpTo_spec {l : List (Nat × Nat)} (h : Rising l) (a : Nat) :
    a ≤ runUpTo l a ∧ (∀ b, a ≤ b → b < runUpTo l a → InAreas l b) ∧ ¬ InAreas l (runUpTo l a) := by
  induction l generalizing a with
  | nil => exact ⟨le_rfl, fun b hlo hhi => absurd hhi (not_lt.mpr hlo), by rintro ⟨r, hr, -⟩; cases hr⟩
  | cons r l ih =>
    obtain ⟨hfirst, hrest⟩ := List.pairwise_cons.mp h
    by_cases hin : r.1 ≤ a ∧ a ≤ r.2
    · rw [show runUpTo (r :: l) a = runUpTo l (r.2 + 1) by simp [runUpTo, hin]]
      obtain ⟨hle, hrun, hend⟩ := ih hrest (r.2 + 1)
      refine ⟨by omega, fun b hlo hhi => ?_, ?_⟩
      · by_cases hb : b ≤ r.2
        · exact ⟨r, List.mem_cons_self, by omega, hb⟩
        · obtain ⟨r', hr', hb'⟩ := hrun b (by omega) hhi
          exact ⟨r', List.mem_cons_of_mem r hr', hb'⟩
      · rintro ⟨r', hr', hb'⟩
        rcases List.mem_cons.mp hr' with rfl | hr'
        · omega
        · exact hend ⟨r', hr', hb'⟩
    · rw [show runUpTo (r :: l) a = runUpTo l a by simp [runUpTo, hin]]
      obtain ⟨hle, hrun, hend⟩ := ih hrest a
      refine ⟨hle, fun b hlo hhi => ?_, ?_⟩
      · obtain ⟨r', hr', hb'⟩ := hrun b hlo hhi
        exact ⟨r', List.mem_cons_of_mem r hr', hb'⟩
      · rintro ⟨r', hr', hb'⟩
        rcases List.mem_cons.mp hr' with rfl | hr'
        · obtain ⟨u, hu, hlo, -⟩ := hrun a le_rfl (by omega)
          have := hfirst u hu
          omega
        · exact hend ⟨r', hr', hb'⟩

theorem mappedUpTo_eq (a : Nat) : mappedUpTo a = runUpTo areas a := rfl

theorem areas_rising : Rising areas := by unfold Rising; decide

theorem allMapped_iff {a n : Nat} : allMapped a n = true ↔ ∀ b, a ≤ b → b < a + n → mapped b = true := by
  obtain ⟨hle, hrun, hend⟩ := runUpTo_spec areas_rising a
  rw [allMapped, decide_eq_true_eq, mappedUpTo_eq]
  simp only [mapped_iff]
  refine ⟨fun h b hlo hhi => hrun b hlo (lt_of_lt_of_le hhi h), fun h => ?_⟩
  by_contra hlt
  exact hend (h _ hle (not_le.mp hlt))

section Ranges

variable {a b n : Nat}

theorem overlap_iff (hn : 1 ≤ n) : overlap a b n = true ↔ ∃ x, (a ≤ x ∧ x < a + n) ∧ b ≤ x ∧ x < b + n := by
  simp only [overlap, Bool.and_eq_true, decide_eq_true_eq]
  exact ⟨fun h => ⟨max a b, by omega, by omega⟩, fun ⟨x, hx⟩ => by omega⟩

theorem touchesBank_iff {k : Bank} (hn : 1 ≤ n) : touchesBank a n k = true ↔
    ∃ x, (a ≤ x ∧ x < a + n) ∧ bankBase k ≤ x ∧ x < bankBase k + 79683 := by
  simp only [touchesBank, Bool.and_eq_true, decide_eq_true_eq]
  simp only [bankWords]
  exact ⟨fun h => ⟨max a (bankBase k), by omega, by omega⟩, fun ⟨x, hx⟩ => by omega⟩

/-- Between the banks lie addresses of neither, so that a range without one lies within one bank. -/
theorem withinBanks_iff (hn : 1 ≤ n) : withinBanks a n = true ↔ ¬ ∃ x, (a ≤ x ∧ x < a + n) ∧
    ¬ (bankBase .b0 ≤ x ∧ x < bankBase .b0 + 79683) ∧ ¬ (bankBase .b1 ≤ x ∧ x < bankBase .b1 + 79683) := by
  simp only [withinBanks, Bool.or_eq_true, Bool.and_eq_true, decide_eq_true_eq]
  simp only [bankBase, bankWords]
  constructor
  · rintro h ⟨x, hx⟩
    omega
  · intro h
    by_contra hn'
    by_cases hlo : a < 0x100000
    · exact h ⟨a, by omega⟩
    · by_cases hmid : a < 0x113743
      · exact h ⟨0x113743, by omega⟩
      · by_cases hlo' : a < 0x140000
        · exact h ⟨a, by omega⟩
        · exact h ⟨a + n - 1, by omega⟩

end Ranges

/-! ## COPY (R156, R157) -/

section Copy

variable {s : State} {r : Req} {src dst n done : Nat}

theorem exec_copy {src dst count : Addr} (h : takenFromOwner s r) (hlo : 1 ≤ count.toNat) (hhi : count.toNat ≤ 65536) :
    exec (.copy r src dst count) s = .next (answered (startCopy s src.toNat dst.toNat count.toNat).1 r 0x13
      (startCopy s src.toNat dst.toNat count.toNat).2 []) :=
  congrArg _ (takeRequest_owner h (by simpa [Request.inRange] using And.intro hlo hhi))

/-- A COPY taken: the slot, and the verified flags of the banks that its destination touches. -/
def copyStarted (s : State) (src dst n : Nat) : State :=
  { s with slot := .copy src dst n 0,
           verified := ⟨if touchesBank dst n .b0 then false else s.verified.b0,
             if touchesBank dst n .b1 then false else s.verified.b1⟩ }

theorem copyStarted_verified (s : State) (src dst n : Nat) (b : Bank) : (copyStarted s src dst n).verified.get b =
    if touchesBank dst n b then false else s.verified.get b := by
  cases b <;> rfl

theorem copyOne_value {w : Word} (hslot : s.slot = .copy src dst n done) (hread : readTable s (src + done) = .value w) :
    copyOne s = if done + 1 < n then { rewrite s (dst + done) w with slot := .copy src dst n (done + 1) }
      else endOperation (rewrite s (dst + done) w) .copy .pass 0 := by
  simp only [copyOne, hslot, hread]

theorem copyOne_fault {a : Nat} (hslot : s.slot = .copy src dst n done) (hread : readTable s (src + done) = .fault a) :
    copyOne s = endOperation (offerFault s a) .copy .fault a := by
  simp only [copyOne, hslot, hread]

theorem copyOne_idle (hslot : ∀ src dst n done, s.slot ≠ .copy src dst n done) : copyOne s = s := by
  cases h : s.slot with
  | copy src dst n done => exact absurd h (hslot src dst n done)
  | empty => simp only [copyOne, h]
  | verify b pass stale reads => simp only [copyOne, h]

end Copy

/-- Settles O32: the rows of R156 in turn, each as a statement of the addresses of the two ranges. -/
theorem copyIsDecided : Obligations.CopyIsDecided := by
  intro s r src dst count h hlo hhi n inSource inDest inBank refused bad unmapped_ active_ outside
  have hn : 1 ≤ n := hlo
  have hbad : (0x1000000 < src.toNat + n ∨ 0x1000000 < dst.toNat + n ∨ overlap src.toNat dst.toNat n = true) ↔ bad := by
    rw [overlap_iff hn]
  have hunmapped : ((!allMapped src.toNat n) = true ∨ (!allMapped dst.toNat n) = true) ↔ unmapped_ := by
    simp only [Bool.not_eq_true', ← Bool.not_eq_true, allMapped_iff, not_forall]
    constructor
    · rintro (⟨a, hlo, hhi, hm⟩ | ⟨a, hlo, hhi, hm⟩)
      · exact ⟨a, .inl ⟨hlo, hhi⟩, by simpa using hm⟩
      · exact ⟨a, .inr ⟨hlo, hhi⟩, by simpa using hm⟩
    · rintro ⟨a, ⟨hlo, hhi⟩ | ⟨hlo, hhi⟩, hm⟩
      · exact .inl ⟨a, hlo, hhi, by simpa using hm⟩
      · exact .inr ⟨a, hlo, hhi, by simpa using hm⟩
  have hactive : ((!s.safeMode) = true ∧ touchesBank dst.toNat n s.active = true) ↔ active_ := by
    rw [touchesBank_iff hn, Bool.not_eq_true']
  have houtside : (!withinBanks dst.toNat n) = true ↔ outside := by
    rw [Bool.not_eq_true', ← Bool.not_eq_true, withinBanks_iff hn, not_not]
  rw [exec_copy h hlo hhi]
  refine ⟨fun h1 => ?_, fun h1 h2 => ?_, fun h1 h2 h3 => ?_, fun h1 h2 h3 h4 => ?_, fun h1 h2 h3 h4 h5 => ?_,
    fun h1 h2 h3 h4 h5 => ?_⟩
  · rw [startCopy, if_pos (hbad.mpr h1)]
  · rw [startCopy, if_neg (hbad.not.mpr h1), if_pos (hunmapped.mpr h2)]
  · rw [startCopy, if_neg (hbad.not.mpr h1), if_neg (hunmapped.not.mpr h2), if_pos (hactive.mpr h3)]
  · rw [startCopy, if_neg (hbad.not.mpr h1), if_neg (hunmapped.not.mpr h2), if_neg (hactive.not.mpr h3),
      if_pos (houtside.mpr h4)]
  · rw [startCopy, if_neg (hbad.not.mpr h1), if_neg (hunmapped.not.mpr h2), if_neg (hactive.not.mpr h3),
      if_neg (houtside.not.mpr h4), if_pos h5]
  · have htaken : startCopy s src.toNat dst.toNat count.toNat = (copyStarted s src.toNat dst.toNat n, .ok) := by
      rw [startCopy, if_neg (hbad.not.mpr h1), if_neg (hunmapped.not.mpr h2), if_neg (hactive.not.mpr h3),
        if_neg (houtside.not.mpr h4), if_neg (not_not.mpr h5), copyStarted]
      cases touchesBank dst.toNat n .b0 <;> cases touchesBank dst.toNat n .b1 <;> rfl
    rw [htaken]
    refine ⟨_, rfl, rfl, fun b => ⟨fun hin => ?_, fun hout => ?_⟩⟩
    · rw [copyStarted_verified, if_pos ((touchesBank_iff hn).mpr hin)]
    · rw [copyStarted_verified, if_neg]
      rw [touchesBank_iff hn]
      rintro ⟨a, hin, hbank⟩
      exact hout a hin hbank

/-- Settles O33, by the read of the source word. -/
theorem copyWordCopies : Obligations.CopyWordCopies := by
  intro s
  have hexec : exec .copyWord s = .next (copyOne s) := rfl
  rw [hexec]
  refine ⟨fun src dst n done w hslot hread hlt => ?_, fun src dst n done w hslot hread hle => ?_,
    fun src dst n done a hslot hread => ?_, fun hslot => ?_⟩
  · rw [copyOne_value hslot hread, if_pos hlt]; rfl
  · rw [copyOne_value hslot hread, if_neg (not_lt.mpr hle)]; rfl
  · rw [copyOne_fault hslot hread]; rfl
  · rw [copyOne_idle hslot]

/-! ## VERIFY (R158, R160, R172) -/

section Verify

variable {s : State} {r : Req} {b : Bank} {stale : Bool} {reads : Nat} {crc : BitVec 32}

theorem exec_verify {n : Byte} (h : takenFromOwner s r) (hb : bankOf n = some b) :
    exec (.verify r n) s = .next (answered (startVerify s b).1 r 0x14 (startVerify s b).2 []) := by
  refine (congrArg _ (takeRequest_owner h (by simp [Request.inRange, hb]))).trans ?_
  simp only [answer, hb, Option.getD_some]
  rfl

/-- A faulted word ends a VERIFY, in whatever pass it stands. -/
theorem verifyOne_fault {pass : VerifyPass} {off : Nat} (hslot : s.slot = .verify b pass stale reads)
    (hoff : verifyReads pass = some off) (hword : readBank s b off = none) : verifyOne s = verifyFault s b stale off := by
  simp only [verifyOne, hslot, hoff, hword]

theorem verifyOne_crc {next : Nat} {w : Word} (hslot : s.slot = .verify b (.crc next crc) stale reads)
    (hword : readBank s b next = some w) : verifyOne s = crcPassStep s b stale reads next crc w := by
  simp only [verifyOne, hslot, verifyReads, hword]

theorem verifyOne_declared {upper : Option Word} {off : Nat} {w : Word}
    (hslot : s.slot = .verify b (.declared crc upper) stale reads) (hoff : verifyReads (.declared crc upper) = some off)
    (hword : readBank s b off = some w) : verifyOne s = declaredStep s b stale reads crc upper w := by
  simp only [verifyOne, hslot, hoff, hword]

theorem declaredStep_agrees {u w : Word} (h : u ++ w = crc) : declaredStep s b stale reads crc (some u) w =
    { s with slot := .verify b (.tables 0 .cueCount []) stale (reads + 1) } := if_pos h

theorem declaredStep_differs {u w : Word} (h : u ++ w ≠ crc) : declaredStep s b stale reads crc (some u) w =
    endVerify s b stale .checksum 0 := if_neg h

theorem verifyOne_idle (hslot : ∀ b pass stale reads, s.slot ≠ .verify b pass stale reads) : verifyOne s = s := by
  cases h : s.slot with
  | verify b pass stale reads => exact absurd h (hslot b pass stale reads)
  | empty => simp only [verifyOne, h]
  | copy src dst n done => simp only [verifyOne, h]

/-- A VERIFY that does not pass clears the verified flag. -/
theorem endVerify_failed (u : State) {res : OpResult} (addr : Nat) (hres : res ≠ .pass) : endVerify u b stale res addr =
    offerReport { u with
      slot := .empty, lastVerify := endResult stale res, lastVerifyAddr := endAddr stale addr,
      verified := u.verified.put b false } (.opDone .verify (endResult stale res) (endAddr stale addr)) := by
  have hfails : (endResult stale res == .pass) = false := by cases stale <;> simp [endResult, hres]
  rw [endVerify_eq, hfails]

end Verify

/-- Settles O34, by the rows of R158. -/
theorem verifyIsDecided : Obligations.VerifyIsDecided := by
  intro s r n b h hb
  rw [exec_verify h hb]
  have hactive : ((!s.safeMode) = true ∧ b = s.active) ↔ (s.safeMode = false ∧ b = s.active) := by rw [Bool.not_eq_true']
  split
  · rename_i hrow; rw [startVerify, if_pos (hactive.mpr hrow)]
  · rename_i hrow
    split
    · rename_i hbusy; rw [startVerify, if_neg (hactive.not.mpr hrow), if_pos hbusy]
    · rename_i hbusy
      rw [startVerify, if_neg (hactive.not.mpr hrow), if_neg hbusy]
      rfl

/-- Settles O35, by the pass and by the read of its word. -/
theorem verifyWordReads : Obligations.VerifyWordReads := by
  intro s endsAtFault
  have hexec : exec .verifyWord s = .next (verifyOne s) := rfl
  have hfault {b : Bank} {pass : VerifyPass} {stale : Bool} {reads off : Nat}
      (hslot : s.slot = .verify b pass stale reads) (hoff : verifyReads pass = some off)
      (hword : readWord s (bankBase b + off) = none) : endsAtFault b stale off := by
    show exec .verifyWord s = _
    rw [hexec, verifyOne_fault hslot hoff hword, verifyFault, endVerify_failed _ _ (by decide), offerFault_verified]
    rfl
  refine ⟨fun b next crc stale reads w hslot hword => ?_, fun b next crc stale reads hslot => hfault hslot rfl,
    fun b crc stale reads w hslot hword => ?_, fun b crc stale reads hslot => hfault hslot rfl,
    fun b crc u stale reads w hslot hword heq => ?_, fun b crc u stale reads w hslot hword hne => ?_,
    fun b crc u stale reads hslot => hfault hslot rfl, fun hslot => ?_⟩
  · intro pass
    rw [hexec, verifyOne_crc hslot hword]
    rfl
  · rw [hexec, verifyOne_declared hslot rfl hword]; rfl
  · rw [hexec, verifyOne_declared hslot rfl hword, declaredStep_agrees heq]
  · intro res
    rw [hexec, verifyOne_declared hslot rfl hword, declaredStep_differs hne, endVerify_failed _ _ (by decide)]
    have haddr : endAddr stale 0 = 0 := by cases stale <;> rfl
    rw [haddr]
    rfl
  · rw [hexec, verifyOne_idle hslot]

end Sys2Proof.Machine
end

section
/-! SWITCH (R161, R162): the rows that refuse it, and the state that a taken one leaves. -/

namespace Sys2Proof.Machine

/-! ## The rows (R161) -/

section Rows

variable {s : State} {r : Req} {b : Bank}

theorem exec_switch {n : Byte} (h : takenFromOwner s r) (hb : bankOf n = some b) : exec (.switch r n) s =
    .next (answered (switchBank s b).1 r 0x15 (switchBank s b).2.1 [if (switchBank s b).2.2 then 1 else 0]) := by
  refine (congrArg _ (takeRequest_owner h (by simp [Request.inRange, hb]))).trans ?_
  simp only [answer, answerSwitch, hb, Option.getD_some]
  rfl

theorem playbackActive_iff {pb : Playback} : playbackActive pb = true ↔
    pb.state = .fading ∨ pb.state = .paused ∨ pb.state = .atCue ∨ pb.state = .releasing := by
  cases h : pb.state <;> simp [playbackActive, h]

theorem any_playbackActive_iff : s.playbacks.any playbackActive = true ↔
    ∃ p, (playbackAt s p).state = .fading ∨ (playbackAt s p).state = .paused ∨ (playbackAt s p).state = .atCue ∨
      (playbackAt s p).state = .releasing := by
  rw [Vector.any_eq_true]
  simp only [playbackActive_iff]
  exact ⟨fun ⟨i, hi, h⟩ => ⟨⟨i, hi⟩, h⟩, fun ⟨p, h⟩ => ⟨p.val, p.isLt, h⟩⟩

/-- A playback that is not active is UNBOUND or READY. -/
theorem unbound_or_ready {pb : Playback} (h : ¬ playbackActive pb = true) : pb.state = .unbound ∨ pb.state = .ready := by
  cases hs : pb.state <;> simp [playbackActive, hs] at h ⊢

theorem heldEdits_iff : (!s.safeMode && heldEdits s) = true ↔ s.safeMode = false ∧ s.patchHold = true ∧
    ∃ off, 3 ≤ off ∧ off < 2627 ∧ (liveStored s off).val ≠ shadowWord s off := by
  simp only [heldEdits, Bool.and_eq_true, Bool.not_eq_true', List.any_eq_true, mem_tableOffs, bne_iff_ne, and_assoc]

end Rows

/-! ## The bank selected (R148, R149, R154, R162) -/

section Selected

variable {s : State} {b : Bank}

theorem selected_frame (s : State) (b : Bank) : selected s b =
    { s with active := b, safeMode := false, patchHold := false, store := (selected s b).store,
             shadow := (selected s b).shadow, verified := (selected s b).verified, faultList := (selected s b).faultList } := by
  unfold selected
  dsimp only
  split <;> rfl

theorem verified_selected (s : State) (b : Bank) :
    (selected s b).verified = if s.safeMode then s.verified else s.verified.put (otherBank b) false := by
  unfold selected
  dsimp only
  split <;> rfl

theorem selected_store (s : State) (b : Bank) : (selected s b).store =
    (rewrite s selectionAddr (wordOf (bankCode b))).store := by
  unfold selected
  dsimp only
  split <;> rfl

theorem stored_selected_selection (s : State) (b : Bank) :
    stored (selected s b) selectionAddr = ⟨wordOf (bankCode b), false⟩ := by
  rw [stored_congr (selected_store s b), stored_rewrite_self]

theorem stored_selected_of_ne {a : Nat} (h : a ≠ selectionAddr) : stored (selected s b) a = stored s a := by
  rw [stored_congr (selected_store s b), stored_rewrite_of_ne _ _ h]

/-- The shadow is loaded from the bank that is selected. -/
theorem shadowWord_selected {off : Nat} (h : 3 ≤ off ∧ off < 2627) :
    shadowWord (selected s b) off = (stored s (bankBase b + off)).val := by
  rw [← stored_selected s b b off]
  exact shadowWord_loadShadow _ h

end Selected

/-! ## The build of the index leaves the rest as it was (R44) -/

/-- `t` is `s` but for the stack index and what the offers of faults change. -/
def IndexFrame (s t : State) : Prop :=
  t = { s with stackIndex := t.stackIndex, faultList := t.faultList, faultOverflow := t.faultOverflow, replies := t.replies,
               tx := t.tx, reports := t.reports, dropMark := t.dropMark }

theorem IndexFrame.trans {s t u : State} (h : IndexFrame s t) (h' : IndexFrame t u) : IndexFrame s u := by
  unfold IndexFrame at *
  rw [h', h]

theorem indexFrame_foldl {β : Type} {f : State → β → State} (h : ∀ u x, IndexFrame u (f u x)) (l : List β) (s : State) :
    IndexFrame s (l.foldl f s) := by
  induction l generalizing s with
  | nil => rfl
  | cons x l ih => exact (h s x).trans (ih (f s x))

theorem indexFrame_offerFault (s : State) (a : Nat) : IndexFrame s (offerFault s a) := by
  unfold IndexFrame
  rw [offerFault_frame]

theorem indexFrame_indexRecord (s : State) (b : Bank) (p : Nat) : IndexFrame s (indexRecord b s p) := by
  by_cases h : Readable s b p
  · rw [indexRecord_readable h]; rfl
  · rw [indexRecord_faulted h]; exact indexFrame_foldl indexFrame_offerFault _ s

theorem indexFrame_buildIndex (s : State) (b : Bank) : IndexFrame s (buildIndex s b) := by
  have hempty : IndexFrame s { s with stackIndex := Vector.replicate 16 [] } := rfl
  cases h : readBank s b cueCountOff with
  | none => rw [buildIndex_faulted h]; exact hempty.trans (indexFrame_offerFault _ _)
  | some w =>
    rw [buildIndex_read h]
    exact hempty.trans (indexFrame_foldl (fun u p => indexFrame_indexRecord u b p) _ _)

/-- Where the cue count and the records' words are read without fault, the build changes the index alone. -/
theorem buildIndex_sound {s : State} {b : Bank} {count : Word} (hcount : readBank s b cueCountOff = some count)
    (hread : ∀ p < count.toNat, Readable s b p) : buildIndex s b = { s with stackIndex := (buildIndex s b).stackIndex } := by
  rw [buildIndex_read hcount, indexUpTo_frame (s := { s with stackIndex := Vector.replicate 16 [] }) hread]

/-! ## A taken SWITCH (R162) -/

section Taken

variable {s : State} {b : Bank}

theorem switchTo_frame (s : State) (b : Bank) : (switchTo s b).1 =
    { selected s b with
      stackIndex := (switchTo s b).1.stackIndex, faultList := (switchTo s b).1.faultList,
      faultOverflow := (switchTo s b).1.faultOverflow, replies := (switchTo s b).1.replies, tx := (switchTo s b).1.tx,
      reports := (switchTo s b).1.reports, dropMark := (switchTo s b).1.dropMark } := by
  rw [switchTo_eq]
  generalize hu : buildIndex (selected s b) b = u
  have hindex : IndexFrame (selected s b) u := hu ▸ indexFrame_buildIndex (selected s b) b
  rw [offerReport_frame]
  unfold IndexFrame at hindex
  rw [hindex]

/-- The SWITCHED report, where both return lines are sending, the queue has room and the build of the index meets no fault. -/
theorem switchTo_reports {count : Word} (hcount : readWord s (bankBase b + 2) = some count)
    (hread : ∀ p < count.toNat, Readable s b p) :
    Offers s (switchTo s b).1 (.switched b (!s.safeMode && heldEdits s)) := by
  have hword (off : Nat) : readBank (selected s b) b off = readBank s b off := by
    rw [readBank, readBank, readWord, readWord, stored_selected]
  have hrecord (p i : Nat) : recordWord (selected s b) b p i = recordWord s b p i := by
    rw [recordWord, recordWord, Nat.add_assoc, stored_selected]
  have hbuilt := buildIndex_sound (s := selected s b) (b := b) ((hword _).trans hcount) fun p hp => by
    rw [Readable, hrecord, hrecord]
    exact hread p hp
  rw [switchTo_eq]
  intro hbusy hroom
  have hview : queueView (buildIndex (selected s b) b) = queueView s := by
    rw [hbuilt, selected_frame]
    rfl
  obtain ⟨htx, hreplies, hreports, hmark⟩ := QueueView.mk.inj hview
  have hoffer := offers_offerReport (buildIndex (selected s b) b) (.switched b (!s.safeMode && heldEdits s))
    (htx ▸ hbusy) (hreports ▸ hroom)
  rw [hoffer, htx, hreplies, hreports, hmark]

end Taken

/-- Settles O37: the rows of R161 in turn, and the state of a taken SWITCH by the bank selected and the index built. -/
theorem switchIsDecided : Obligations.SwitchIsDecided := by
  intro s r n b h hb refused live held
  have hactive : ((!s.safeMode) = true ∧ b = s.active) ↔ (s.safeMode = false ∧ b = s.active) := by rw [Bool.not_eq_true']
  have hlive : s.playbacks.any playbackActive = true ↔ live := any_playbackActive_iff
  have hrefused {res : Result} (hrow : switchBank s b = (s, res, false)) : exec (.switch r n) s = refused res := by
    rw [exec_switch h hb, hrow]
    rfl
  split
  · rename_i hrow
    exact hrefused (by rw [switchBank, if_pos (hactive.mpr hrow)])
  rename_i hrow
  split
  · rename_i hbusy
    exact hrefused (by rw [switchBank, if_neg (hactive.not.mpr hrow), if_pos hbusy])
  rename_i hslot
  split
  · rename_i hverified
    exact hrefused (by rw [switchBank, if_neg (hactive.not.mpr hrow), if_neg hslot, if_pos (by simp [hverified])])
  rename_i hverified
  refine ⟨fun hl => hrefused ?_, fun hl => ⟨(switchTo s b).1, !s.safeMode && heldEdits s, heldEdits_iff, ?_,
    fun hbusy hroom hread hcount => ?_, ?_⟩⟩
  · rw [switchBank, if_neg (hactive.not.mpr hrow), if_neg hslot, if_neg (by simp [hverified]), if_pos (hlive.mpr hl)]
  · have hstill (p : PlaybackNo) : ¬ playbackActive (playbackAt s p) = true := fun hp => hl ⟨p, playbackActive_iff.mp hp⟩
    have hstaged : s.safeMode = true ∨ b ≠ s.active := by
      by_contra hn
      simp only [not_or, Bool.not_eq_true, ne_eq, not_not] at hn
      exact hrow hn
    exact exec_switch_taken h hb hstaged (not_not.mp hslot) (by simpa using hverified) fun p => unbound_or_ready (hstill p)
  · obtain ⟨count, hcount⟩ := Option.ne_none_iff_exists'.mp hcount
    have hrecords (p : Nat) (hp : p < count.toNat) : Readable s b p := by
      obtain ⟨hstack, hcue⟩ := hread count hcount p hp
      rw [show bankBase b + 2628 + 12 * p = bankBase b + 2627 + 12 * p + 1 by omega, stored_record] at hcue
      exact ⟨stored_record s b p 0 ▸ hstack, hcue⟩
    obtain ⟨htx, -, hreports, hmark⟩ := QueueView.mk.inj (switchTo_reports hcount hrecords hbusy hroom)
    exact ⟨hreports, hmark, htx⟩
  · have hframe := switchTo_frame s b
    generalize (switchTo s b).1 = t at hframe
    have hstored : stored t = stored (selected s b) := stored_congr (congrArg State.store hframe :)
    have hshadow : t.shadow = (selected s b).shadow := (congrArg State.shadow hframe :)
    have hverified : t.verified = (selected s b).verified := (congrArg State.verified hframe :)
    rw [selected_frame] at hframe
    refine ⟨(congrArg State.active hframe :), (congrArg State.safeMode hframe :), (congrArg State.patchHold hframe :), ?_,
      fun a ha => ?_, hverified.trans (verified_selected s b), fun off hlo hhi => ?_, ?_⟩
    · rw [hstored, stored_selected_selection]
    · rw [hstored, stored_selected_of_ne ha]
    · rw [shadowWord, hshadow]
      exact shadowWord_selected ⟨hlo, hhi⟩
    · rw [hframe]

end Sys2Proof.Machine
end

section
/-! Parity faults (R163) and the offer of an address to the fault list (R165). -/

namespace Sys2Proof.Machine

section Offer

variable {s : State} {a : Nat}

theorem offerFault_of_listed (h : a ∈ s.faultList) : offerFault s a = s := if_pos h

theorem offerFault_of_room (h : a ∉ s.faultList) (hroom : s.faultList.length < 16) :
    offerFault s a = offerReport { s with faultList := s.faultList ++ [a] } (.fault a) := by
  rw [offerFault, if_neg h, if_pos hroom]

theorem offerFault_of_full (h : a ∉ s.faultList) (hfull : 16 ≤ s.faultList.length) :
    offerFault s a = { s with faultOverflow := true } := by
  rw [offerFault, if_neg h, if_neg (by omega)]

end Offer

theorem exec_parityFault_retained {s : State} {addr : Addr} {v : Word} (h : retained addr.toNat = true) :
    exec (.parityFault addr v) s = .next (breakParity s addr.toNat v) :=
  congrArg Host.Outcome.next (if_pos h)

theorem exec_parityFault_unretained {s : State} {addr : Addr} {v : Word} (h : retained addr.toNat = false) :
    exec (.parityFault addr v) s = .next s :=
  congrArg Host.Outcome.next (if_neg (by simp [h]))

theorem readWord_breakParity_self (s : State) (a : Nat) (v : Word) : readWord (breakParity s a v) a = none :=
  readWord_eq_none.mpr (by rw [stored_breakParity_self])

/-- Settles O6: the command by whether its address has parity, an offer by whether its address is listed and the list full. -/
theorem parityFaultHitsOneWord : Obligations.ParityFaultHitsOneWord := by
  intro s
  refine ⟨fun addr v => ⟨fun hretained => ?_, exec_parityFault_unretained⟩, fun _ => offerFault_of_listed,
    fun _ => offerFault_of_room, fun _ => offerFault_of_full, rfl, fun _ _ => rfl⟩
  exact ⟨breakParity s addr.toNat v, exec_parityFault_retained hretained, rfl, stored_breakParity_self s _ v,
    readWord_breakParity_self s _ v, fun _ hne => stored_breakParity_of_ne s v hne⟩

end Sys2Proof.Machine
end

section
/-! RESET_RELEASE (R37, R77, R167): the words that the repair leaves, the working copies loaded from them, and the arbiter and
the playbacks initialised. -/

namespace Sys2Proof.Machine

/-! ## What the start of the check changes -/

/-- `t` is `s` but for the store, the arbiter, the working copies, the bank selection, the playbacks, and what offered reports
change; the fault list and its overflow flag are as they were. -/
def CheckFrame (s t : State) : Prop :=
  t = { s with arb := t.arb, working := t.working, store := t.store, active := t.active, playbacks := t.playbacks,
               takeOrder := t.takeOrder, reports := t.reports, dropMark := t.dropMark, tx := t.tx, replies := t.replies }

theorem CheckFrame.trans {s t u : State} (h : CheckFrame s t) (h' : CheckFrame t u) : CheckFrame s u := by
  unfold CheckFrame at *
  rw [h', h]

theorem CheckFrame.faultList {s t : State} (h : CheckFrame s t) : t.faultList = s.faultList := by
  rw [h]

theorem CheckFrame.isLive {s t : State} (h : CheckFrame s t) (x : Link) : isLive t x = isLive s x := by
  rw [h]
  rfl

/-- From an empty fault list, the word that a repair offers leaves the list again as it is rewritten (R166). -/
theorem checkFrame_rewriteAll {s : State} {a : Nat} {ws : List (Nat × Word)} (hempty : s.faultList = [])
    (ha : a ∈ ws.map Prod.fst) : CheckFrame s (rewriteAll (offerFault s a) ws) := by
  have hoffer : offerFault s a = offerReport { s with faultList := [a] } (.fault a) := by
    rw [offerFault_of_room (by simp [hempty]) (by simp [hempty]), hempty, List.nil_append]
  have hlist : (rewriteAll (offerFault s a) ws).faultList = s.faultList := by
    obtain ⟨w, hw, rfl⟩ := List.mem_map.mp ha
    rw [rewriteAll_faultList, hoffer, hempty]
    simpa using ⟨w.2, hw⟩
  unfold CheckFrame
  rw [rewriteAll_frame, hlist, hoffer, offerReport_frame]

/-- A fold of repairs, from an empty fault list. -/
theorem checkFrame_foldl {β : Type} {f : State → β → State} (h : ∀ u x, u.faultList = [] → CheckFrame u (f u x))
    (l : List β) {s : State} (hempty : s.faultList = []) : CheckFrame s (l.foldl f s) := by
  induction l generalizing s with
  | nil => rfl
  | cons x l ih =>
    have hstep := h s x hempty
    exact hstep.trans (ih (hstep.faultList.trans hempty))

/-! ## The settings words -/

/-- A settings word as the repair leaves it. -/
def mendedWord (s : State) (a : Nat) : StoredWord := if (stored s a).bad then ⟨defaultWord a, false⟩ else stored s a

theorem mendedWord_good (s : State) (a : Nat) : (mendedWord s a).bad = false := by
  unfold mendedWord
  split
  · rfl
  · rename_i h; simpa using h

theorem mendedWord_of_good {s : State} {a : Nat} (h : (stored s a).bad = false) : mendedWord s a = stored s a :=
  if_neg (by simp [h])

section Words

variable {s : State}

theorem checkFrame_repairWord (a : Nat) (hempty : s.faultList = []) : CheckFrame s (repairWord s a) := by
  unfold repairWord
  split
  · exact checkFrame_rewriteAll (ws := [(a, defaultWord a)]) hempty (by simp)
  · rfl

theorem stored_repairWord_self (s : State) (a : Nat) : stored (repairWord s a) a = mendedWord s a := by
  unfold repairWord mendedWord
  split
  · exact stored_rewrite_self _ a _
  · rfl

theorem stored_repairWord_of_ne {a b : Nat} (h : b ≠ a) : stored (repairWord s a) b = stored s b := by
  unfold repairWord
  split
  · rw [stored_rewrite_of_ne _ _ h, stored_offerFault]
  · rfl

theorem stored_repairWords_of_not_mem {as : List Nat} {b : Nat} (h : b ∉ as) :
    stored (as.foldl repairWord s) b = stored s b := by
  induction as generalizing s with
  | nil => rfl
  | cons a as ih =>
    rw [List.mem_cons, not_or] at h
    exact (ih h.2).trans (stored_repairWord_of_ne h.1)

theorem stored_repairWords_of_mem {as : List Nat} {b : Nat} (h : b ∈ as) :
    stored (as.foldl repairWord s) b = mendedWord s b := by
  induction as generalizing s with
  | nil => cases h
  | cons a as ih =>
    rw [List.foldl_cons]
    by_cases hmem : b ∈ as
    · rw [ih hmem]
      by_cases hba : b = a
      · subst hba
        have hmended := stored_repairWord_self s b
        rw [mendedWord_of_good (by rw [hmended, mendedWord_good]), hmended]
      · rw [mendedWord, mendedWord, stored_repairWord_of_ne hba]
    · obtain rfl := (List.mem_cons.mp h).resolve_right hmem
      rw [stored_repairWords_of_not_mem hmem, stored_repairWord_self]

end Words

theorem mem_settingAddrs {a : Nat} :
    a ∈ settingAddrs ↔ a < 28 ∨ (∃ (p : PlaybackNo), ∃ i < 5, a = playbackAddr p i) ∨ a = selectionAddr := by
  simp only [settingAddrs, List.mem_append, List.mem_map, List.mem_flatMap, List.mem_range, List.mem_singleton, allPlaybacks,
    List.mem_finRange, globalAddr, true_and, exists_eq_right, or_assoc]
  simp only [eq_comm]

theorem boundStack_mem_settingAddrs (p : PlaybackNo) : playbackAddr p 0 ∈ settingAddrs :=
  mem_settingAddrs.mpr (.inr (.inl ⟨p, 0, by decide, rfl⟩))

theorem le_selectionAddr_of_mem {a : Nat} (h : a ∈ settingAddrs) : a ≤ selectionAddr := by
  rcases mem_settingAddrs.mp h with h | ⟨p, i, hi, rfl⟩ | rfl
  · simp only [selectionAddr]; omega
  · simp only [playbackAddr, selectionAddr]; omega
  · exact le_rfl

/-! ## The curves -/

/-- The words of a linear curve. -/
def linearWords (g : Nat) : List (Nat × Word) := pointList.map fun j => (curveAddr g j, wordOf (linearPoint j))

theorem mem_linearWords {g : Nat} {w : Nat × Word} :
    w ∈ linearWords g ↔ ∃ j < 33, (curveAddr g j, wordOf (linearPoint j)) = w := by
  simp [linearWords, pointList]

theorem linearWords_nodup (g : Nat) : ((linearWords g).map Prod.fst).Nodup := by
  rw [linearWords, List.map_map]
  exact List.nodup_range.map fun i j hij => by simpa [curveAddr] using hij

section Curves

variable {s : State} {g : Nat}

theorem repairCurve_of_good (h : ∀ i < 33, (stored s (curveAddr g i)).bad = false) : repairCurve s g = s := by
  have hnone : pointList.find? (fun i => (stored s (curveAddr g i)).bad) = none := by
    simpa [pointList] using h
  simp only [repairCurve, hnone]

theorem repairCurve_of_bad (h : ∃ i < 33, (stored s (curveAddr g i)).bad = true) :
    ∃ j < 33, repairCurve s g = rewriteAll (offerFault s (curveAddr g j)) (linearWords g) := by
  obtain ⟨i, hi, hbad⟩ := h
  obtain ⟨j, hj⟩ := Option.isSome_iff_exists.mp
    (List.find?_isSome (p := fun i => (stored s (curveAddr g i)).bad) |>.mpr ⟨i, List.mem_range.mpr hi, hbad⟩)
  exact ⟨j, List.mem_range.mp (List.mem_of_find?_eq_some hj), by simp only [repairCurve, pointList, hj, linearWords]⟩

/-- A curve is kept, or rewritten to the linear points at an offer of one of its words. -/
theorem repairCurve_cases (s : State) (g : Nat) : repairCurve s g = s ∨
    ∃ j < 33, repairCurve s g = rewriteAll (offerFault s (curveAddr g j)) (linearWords g) := by
  by_cases h : ∃ i < 33, (stored s (curveAddr g i)).bad = true
  · exact .inr (repairCurve_of_bad h)
  · exact .inl (repairCurve_of_good (by simpa using h))

theorem checkFrame_repairCurve (g : Nat) (hempty : s.faultList = []) : CheckFrame s (repairCurve s g) := by
  rcases repairCurve_cases s g with h | ⟨j, hj, h⟩ <;> rw [h]
  · rfl
  · exact checkFrame_rewriteAll hempty (List.mem_map.mpr ⟨_, mem_linearWords.mpr ⟨j, hj, rfl⟩, rfl⟩)

theorem stored_repairCurve_of_bad (h : ∃ i < 33, (stored s (curveAddr g i)).bad = true) {i : Nat} (hi : i < 33) :
    stored (repairCurve s g) (curveAddr g i) = ⟨wordOf (linearPoint i), false⟩ := by
  obtain ⟨j, -, hrepair⟩ := repairCurve_of_bad h
  rw [hrepair]
  exact stored_rewriteAll_of_mem _ _ (linearWords_nodup g) (mem_linearWords.mpr ⟨i, hi, rfl⟩)

/-- The repair of a curve leaves the words outside it. -/
theorem stored_repairCurve_of_outside {a : Nat} (h : ∀ i < 33, a ≠ curveAddr g i) :
    stored (repairCurve s g) a = stored s a := by
  rcases repairCurve_cases s g with hrepair | ⟨j, -, hrepair⟩ <;> rw [hrepair]
  rw [stored_rewriteAll_of_not_mem, stored_offerFault]
  rintro w hw rfl
  obtain ⟨i, hi, rfl⟩ := mem_linearWords.mp hw
  exact h i hi rfl

theorem stored_repairCurves_of_outside {gs : List Nat} {a : Nat} (h : ∀ g ∈ gs, ∀ i < 33, a ≠ curveAddr g i) :
    stored (gs.foldl repairCurve s) a = stored s a := by
  induction gs generalizing s with
  | nil => rfl
  | cons g gs ih =>
    rw [List.forall_mem_cons] at h
    exact (ih h.2).trans (stored_repairCurve_of_outside h.1)

theorem curveAddr_ne {g g' i j : Nat} (h : g ≠ g') (hi : i < 33) (hj : j < 33) : curveAddr g i ≠ curveAddr g' j := by
  simp only [curveAddr]; omega

/-- Each curve of several is repaired from its words as they stood. -/
theorem stored_repairCurves_of_mem {gs : List Nat} (hn : gs.Nodup) (hg : g ∈ gs) :
    ∃ u, (∀ i < 33, stored u (curveAddr g i) = stored s (curveAddr g i)) ∧
      ∀ i < 33, stored (gs.foldl repairCurve s) (curveAddr g i) = stored (repairCurve u g) (curveAddr g i) := by
  obtain ⟨before, after, rfl⟩ := List.append_of_mem hg
  obtain ⟨-, ⟨hafter, -⟩, hbefore⟩ := by simpa only [List.nodup_append, List.nodup_cons] using hn
  refine ⟨before.foldl repairCurve s, fun i hi => ?_, fun i hi => ?_⟩
  · exact stored_repairCurves_of_outside fun g' hg' j hj => curveAddr_ne (hbefore g' hg' g (by simp)).symm hi hj
  · rw [List.foldl_append, List.foldl_cons]
    exact stored_repairCurves_of_outside fun g' hg' j hj => curveAddr_ne (fun he => hafter (he ▸ hg')) hi hj

end Curves

/-! ## The repair (R167) -/

section Repair

variable {s : State}

/-- The part as RESET_RELEASE finds it, checking and with an empty fault list. -/
def startOfCheck (s : State) : State := { s with phase := .checking, faultList := [], faultOverflow := false }

theorem checkFrame_repaired (s : State) : CheckFrame (startOfCheck s) (repaired s) := by
  have hwords := checkFrame_foldl (fun _ a hempty => checkFrame_repairWord a hempty) settingAddrs (s := startOfCheck s) rfl
  exact hwords.trans
    (checkFrame_foldl (fun _ g hempty => checkFrame_repairCurve g hempty) (List.range' 1 7) hwords.faultList)

theorem curve_bounds {g i : Nat} (hg : g ∈ List.range' 1 7) (hi : i < 33) :
    0x3000 < curveAddr g i ∧ curveAddr g i < 0x4000 := by
  rw [List.mem_range'_1] at hg
  simp only [curveAddr]; omega

theorem stored_repaired_setting {a : Nat} (h : a ∈ settingAddrs) : stored (repaired s) a = mendedWord s a := by
  have hlow := le_selectionAddr_of_mem h
  rw [selectionAddr] at hlow
  refine (stored_repairCurves_of_outside fun g hg i hi => ?_).trans (stored_repairWords_of_mem h)
  have hbounds := curve_bounds hg hi
  omega

theorem stored_repaired_bank (b : Bank) (off : Nat) : stored (repaired s) (bankBase b + off) = stored s (bankBase b + off) := by
  have hbank : 0x100000 ≤ bankBase b := by cases b <;> decide
  refine (stored_repairCurves_of_outside fun g hg i hi => ?_).trans (stored_repairWords_of_not_mem fun hmem => ?_)
  · have hbounds := curve_bounds hg hi
    omega
  · have hlow := le_selectionAddr_of_mem hmem
    rw [selectionAddr] at hlow
    omega

/-- The repair of the settings leaves the words of the curves. -/
theorem stored_repairedWords_curve {g i : Nat} (hg : g ∈ List.range' 1 7) (hi : i < 33) :
    stored (settingAddrs.foldl repairWord (startOfCheck s)) (curveAddr g i) = stored s (curveAddr g i) := by
  refine stored_repairWords_of_not_mem fun hmem => ?_
  have hbounds := curve_bounds hg hi
  have hlow := le_selectionAddr_of_mem hmem
  rw [selectionAddr] at hlow
  omega

theorem stored_repaired_curve {g : Nat} (hg : g ∈ List.range' 1 7) :
    ((∃ i < 33, (stored s (curveAddr g i)).bad = true) →
      ∀ i < 33, stored (repaired s) (curveAddr g i) = ⟨wordOf (linearPoint i), false⟩) ∧
    ((∀ i < 33, (stored s (curveAddr g i)).bad = false) →
      ∀ i < 33, stored (repaired s) (curveAddr g i) = stored s (curveAddr g i)) := by
  obtain ⟨u, hu, hrepaired⟩ := stored_repairCurves_of_mem (s := settingAddrs.foldl repairWord (startOfCheck s))
    List.nodup_range' hg
  have hfound (i : Nat) (hi : i < 33) : stored u (curveAddr g i) = stored s (curveAddr g i) :=
    (hu i hi).trans (stored_repairedWords_curve hg hi)
  refine ⟨fun ⟨i, hi, hbad⟩ j hj => ?_, fun hgood j hj => ?_⟩
  · exact (hrepaired j hj).trans (stored_repairCurve_of_bad ⟨i, hi, by rwa [hfound i hi]⟩ hj)
  · refine (hrepaired j hj).trans ?_
    rw [repairCurve_of_good fun i hi => by rw [hfound i hi, hgood i hi], hfound j hj]

end Repair

/-! ## The working copies (R123, R163) -/

/-- The settings of line `k` as its four words give them. -/
def lineOfWords (word : Nat → Word) (k : LineNo) : LineSettings :=
  { enable := word (lineAddr k) != 0, count := (word (lineAddr k + 1)).toNat,
    mode := if word (lineAddr k + 2) = 0 then .coarse else .fine, period := (word (lineAddr k + 3)).toNat }

/-- The working copies as the words of the global settings give them. -/
def workingOf (word : Nat → Word) : Working :=
  { sourceMode := sourceModeOf (word 0).toNat, preferred := linkOfCode (word 1).toNat, reclaim := word 2 != 0,
    handoverTime := (word 3).toNat, lossTime := (word 4).toNat, lossFadeDelay := (word 5).toNat,
    lossFadeTime := (word 6).toNat, unit := (word 9).toNat, panelPlayback := (word 10).toNat, panelEnable := word 11 != 0,
    lines := Vector.ofFn (lineOfWords word) }

/-- A line's setting is loaded into the line's working copy. -/
theorem loadSetting_line (w : Working) (k : LineNo) {j : Nat} (hj : j < 4) (v : Word) :
    loadSetting w (lineAddr k + j) v = { w with lines := w.lines.set k (loadLineSetting w.lines[k] j v) } := by
  fin_cases k <;> interval_cases j <;> rfl

/-- The four settings of a line loaded. -/
theorem foldl_loadSetting_line (w : Working) (word : Nat → Word) (k : LineNo) :
    (List.range 4).foldl (fun w j => loadSetting w (lineAddr k + j) (word (lineAddr k + j))) w =
      { w with lines := w.lines.set k (lineOfWords word k) } := by
  have hfirst (v : Word) := loadSetting_line w k (show 0 < 4 by decide) v
  rw [Nat.add_zero] at hfirst
  simp [List.range_succ, loadSetting_line, hfirst, loadLineSetting, lineOfWords]

/-- The global settings are the twelve of no line and each line's four. -/
theorem range_settings :
    List.range 28 = List.range 12 ++ allLines.flatMap fun k => (List.range 4).map (lineAddr k + ·) := by
  decide

/-- The settings of all four lines loaded. -/
theorem foldl_set_lines (w : Working) (l : LineNo → LineSettings) :
    allLines.foldl (fun w k => { w with lines := w.lines.set k (l k) }) w = { w with lines := Vector.ofFn l } := by
  have hlines : (((w.lines.set 0 (l 0)).set 1 (l 1)).set 2 (l 2)).set 3 (l 3) = Vector.ofFn l := by
    ext k hk
    interval_cases k <;> simp
  exact congrArg (fun lines => { w with lines := lines }) hlines

/-- The load of the settings in turn gives each working copy by its word. -/
theorem foldl_loadSetting (w : Working) (word : Nat → Word) :
    (List.range 28).foldl (fun w i => loadSetting w i (word i)) w = workingOf word := by
  rw [range_settings, List.foldl_append, List.foldl_flatMap]
  simp only [List.foldl_map, foldl_loadSetting_line, foldl_set_lines]
  rfl

/-- Working copies that the words give hold every setting. -/
theorem loadSetting_workingOf (word : Nat → Word) {i : Nat} (hi : i < 28) :
    loadSetting (workingOf word) i (word i) = workingOf word := by
  by_cases hline : i < 12
  · interval_cases i <;> rfl
  · obtain ⟨k, j, hj, rfl⟩ : ∃ (k : LineNo) (j : Nat), j < 4 ∧ i = lineAddr k + j :=
      ⟨⟨(i - 12) / 4, by omega⟩, (i - 12) % 4, by omega, by simp only [lineAddr]; omega⟩
    have hset : loadLineSetting (workingOf word).lines[k] j (word (lineAddr k + j)) = (workingOf word).lines[k] := by
      simp only [workingOf, Fin.getElem_fin, Vector.getElem_ofFn, lineOfWords]
      interval_cases j <;> rfl
    rw [loadSetting_line _ k hj, hset]
    simp

/-! ## The arbiter and the playbacks (R37, R77) -/

/-- The arbiter is initialised, and where a link is LIVE a return may follow. -/
theorem arbiterInit_cases (s : State) : ∃ arb, arbiterInit s = { s with arb := arb } ∨
    ∃ x k, arbiterInit s = trigger (returnTo { s with arb := arb } x) k := by
  unfold arbiterInit
  dsimp only
  generalize (if s.working.sourceMode = .isolated then SourceState.off else .hold) = source
  refine ⟨{ owner := s.working.preferred, lock := false, holdoff := false, source := source, snapshot := [], elapsed := 0 }, ?_⟩
  split
  · split
    · exact .inr ⟨_, _, rfl⟩
    · exact .inl rfl
  · split
    · exact .inr ⟨_, _, rfl⟩
    · exact .inl rfl

theorem arbiterInit_frame (s : State) : arbiterInit s =
    { s with arb := (arbiterInit s).arb, replies := (arbiterInit s).replies, tx := (arbiterInit s).tx,
             reports := (arbiterInit s).reports, dropMark := (arbiterInit s).dropMark } := by
  obtain ⟨arb, h | ⟨x, k, h⟩⟩ := arbiterInit_cases s <;> rw [h]
  rw [trigger_frame, returnTo_frame]

/-- A playback whose bound-stack word is read is cleared by it. -/
theorem playbackAt_clearFades {s : State} {p : PlaybackNo} (h : (stored s (playbackAddr p 0)).bad = false) :
    playbackAt (clearFades s) p = clearedPlayback ((stored s (playbackAddr p 0)).val != 0) := by
  have hread : boundStack s p = some (stored s (playbackAddr p 0)).val := readWord_eq_some.mpr ⟨h, rfl⟩
  have hbound : isBound s p = ((stored s (playbackAddr p 0)).val != 0) := by rw [isBound, hread]
  simp [playbackAt, clearFades, hbound]

/-! ## What the words of the repair are loaded into -/

/-- The part with the working copies loaded and the bank selected by the words as they stand. -/
def withSettings (u : State) : State :=
  { u with working := workingOf fun i => (stored u (globalAddr i)).val, active := bankOfWord (stored u selectionAddr).val }

/-- The part loaded from its words, with the arbiter and the playbacks initialised. -/
def initialised (u : State) : State := clearFades (arbiterInit (withSettings u))

section Initialised

variable (u : State)

theorem stored_initialised : stored (initialised u) = stored u :=
  stored_congr (s := withSettings u) (congrArg State.store (arbiterInit_frame (withSettings u)) :)

theorem working_initialised : (initialised u).working = workingOf fun i => (stored u (globalAddr i)).val :=
  (congrArg State.working (arbiterInit_frame (withSettings u)) :)

theorem active_initialised : (initialised u).active = bankOfWord (stored u selectionAddr).val :=
  (congrArg State.active (arbiterInit_frame (withSettings u)) :)

theorem takeOrder_initialised : (initialised u).takeOrder = [] := rfl

theorem checkFrame_initialised : CheckFrame u (initialised u) := by
  have hsettings : CheckFrame u (withSettings u) := rfl
  have hinit : CheckFrame (withSettings u) (arbiterInit (withSettings u)) := by
    unfold CheckFrame
    rw [arbiterInit_frame]
  exact (hsettings.trans hinit).trans rfl

variable {u}

theorem playbackAt_initialised {p : PlaybackNo} (h : (stored u (playbackAddr p 0)).bad = false) :
    playbackAt (initialised u) p = clearedPlayback ((stored u (playbackAddr p 0)).val != 0) := by
  have hstored : stored (arbiterInit (withSettings u)) = stored u := stored_initialised u
  rw [initialised, playbackAt_clearFades (by rw [hstored, h]), hstored]

theorem arb_initialised (h : ∀ x, isLive u x = false) : (initialised u).arb =
    { owner := (initialised u).working.preferred, lock := false, holdoff := false,
      source := if (initialised u).working.sourceMode = .isolated then .off else .hold, snapshot := [], elapsed := 0 } := by
  rw [working_initialised]
  exact congrArg State.arb (arbiterInit_of_no_live (s := withSettings u) h)

end Initialised

theorem loadWorking_eq (u : State) :
    loadWorking u = { u with working := workingOf fun i => (stored u (globalAddr i)).val } :=
  congrArg (fun w => { u with working := w }) (foldl_loadSetting u.working fun i => (stored u (globalAddr i)).val)

theorem exec_resetRelease {s : State} (h : s.phase = .inReset) : exec .resetRelease s = .next (initialised (repaired s)) := by
  refine congrArg Host.Outcome.next ((releaseReset_eq h).trans ?_)
  rw [loadWorking_eq]
  generalize repaired s = u
  rfl

/-- The fields that RESET_RELEASE can change. -/
theorem CheckFrame.released {s t : State} (h : CheckFrame (startOfCheck s) t) (htake : t.takeOrder = []) :
    t.phase = .checking ∧ t.faultList = [] ∧ t.faultOverflow = false ∧
      t = { s with phase := .checking, arb := t.arb, working := t.working, store := t.store, faultList := [],
                   faultOverflow := false, active := t.active, playbacks := t.playbacks, takeOrder := [],
                   reports := t.reports, dropMark := t.dropMark, tx := t.tx, replies := t.replies } := by
  unfold CheckFrame at h
  rw [htake] at h
  exact ⟨(congrArg State.phase h :), (congrArg State.faultList h :), (congrArg State.faultOverflow h :), h⟩

/-- Settles O4: the words that the repair leaves, and what is loaded and initialised from them. -/
theorem resetReleaseRepairs : Obligations.ResetReleaseRepairs := by
  intro s hphase
  have hrepair := checkFrame_repaired s
  have hstored := stored_initialised (repaired s)
  obtain ⟨hchecking, hlist, hoverflow, hframe⟩ :=
    (hrepair.trans (checkFrame_initialised _)).released (takeOrder_initialised _)
  refine ⟨initialised (repaired s), exec_resetRelease hphase, hchecking, ?_, ?_, ?_, ?_, ?_, hlist, hoverflow, ?_,
    takeOrder_initialised _, hframe, ?_⟩
  · intro a ha
    rw [hstored]
    exact stored_repaired_setting ha
  · intro g hlo hhi
    rw [hstored]
    exact stored_repaired_curve (List.mem_range'_1.mpr ⟨hlo, by omega⟩)
  · intro b off _
    rw [hstored, stored_repaired_bank]
  · intro i hi
    rw [working_initialised, hstored]
    exact loadSetting_workingOf _ hi
  · rw [active_initialised, hstored]
  · intro p
    have hgood : (stored (repaired s) (playbackAddr p 0)).bad = false := by
      rw [stored_repaired_setting (boundStack_mem_settingAddrs p), mendedWord_good]
    rw [playbackAt_initialised hgood, hstored]
  · intro hdead
    exact arb_initialised fun x => (hrepair.isLive x).trans (hdead x)

end Sys2Proof.Machine
end
